-- ==== Sys2Proof/Word.lean ====
section
/-! DEFINITION. The number types the manual uses for bytes, addresses, classes, phases and message numbers. -/

namespace Sys2Proof

/-- One character's data bits, or one byte of the local port (R2, R166). -/
abbrev Byte := BitVec 8

/-- A 16-bit quantity: the CRC-16, the divisor, the line error counter, a two-byte field (R1, R16, R157, R181). -/
abbrev Half := BitVec 16

/-- A station address, 0 to 31 (00, Addresses). -/
abbrev Addr := Fin 32

/-- A traffic class, 0 to 3; a lower number has higher priority (00, Traffic classes). -/
abbrev Cls := Fin 4

/-- A phase number, 0 to 63 (R12: the field is 6 bits wide). -/
abbrev Phase := Fin 64

/-- A cycle number, 0 to 255, after which comes 0 (00, Cycle numbers). -/
abbrev Cycle := BitVec 8

/-- A message's tag, 0 to 255 (R67). -/
abbrev Tag := BitVec 8

/-- A message number, 2 bits, advancing from 3 to 0 (R75, R93). -/
abbrev MsgNo := BitVec 2

/-- A set of fault kinds without the bits that name no kind (10, Sets and codes). -/
abbrev KindSet := BitVec 10

/-- A set of interrupt causes without the bits that name no cause (10, Sets and codes). -/
abbrev CauseSet := BitVec 6

end Sys2Proof
end

