-- ==== Sys2Proof/Syntax.lean ====
section
/-! DEFINITION. The commands of the block: one constructor per row of opcode_table.json. -/

namespace Sys2Proof

/-- The level of RST_N that a FULL_RESET command brings: `low` at its fall or at power-on, `high` at its rise or at the end
of the power-on reset (R64, log 5). -/
inductive Level where
  | low
  | high
  deriving DecidableEq, Repr

/-- One command: a transaction of the local port at the moment it is taken, with its argument bytes; an event of the port's
framing; an event of the line or of a line timer; or the reset input. -/
inductive Instr where
  /-- FULL_RESET, R64: RST_N goes to the given level. -/
  | fullReset (rstN : Level)
  /-- SEL_N_FALL, R166. -/
  | selNFall
  /-- TRANSACTION_ABANDONED, R169: SEL_N rises before the transaction is taken. -/
  | transactionAbandoned
  /-- UNKNOWN_COMMAND, R170: a command byte that names no command. -/
  | unknownCommand (code : Byte)
  /-- SETUP, R171: its 28 argument bytes. -/
  | setup (args : List Byte)
  /-- TABLE, R24: the length argument and the entry bytes. -/
  | table (length : Byte) (entries : List Byte)
  /-- JOIN, R49. -/
  | join
  /-- LEAVE, R62. -/
  | leave
  /-- REJOIN, R61. -/
  | rejoin
  /-- RESTART, R63. -/
  | restart
  /-- SOFT_RESET, R63: the soft reset takes effect. -/
  | softReset
  /-- ENABLE, R174: a cause set. -/
  | enable (causes : Byte)
  /-- TEST, R173: a set of test insertions. -/
  | test (insertions : Byte)
  /-- SUBMIT, R67: the header fields and the payload bytes. -/
  | submit (tag priority destination : Byte) (length : Half) (payload : List Byte)
  /-- WITHDRAW, R76: a tag. -/
  | withdraw (tag : Byte)
  /-- COMPLETIONS, R80: a count. -/
  | completions (n : Byte)
  /-- FETCH, R122. -/
  | fetch
  /-- STATUS, R175. -/
  | status
  /-- PEERS, R144: a first address and a count. -/
  | peers (first count : Byte)
  /-- FAULTS, R154. -/
  | faults
  /-- FAULT CLEAR, R155: a fault-kind set. -/
  | faultClear (kinds : Half)
  /-- COUNTER, R162. -/
  | counter
  /-- SNAPSHOT, R160. -/
  | snapshot
  /-- RECEIVER_SETTLED, R3. -/
  | receiverSettled
  /-- START_BIT_SEEN, R4: the middle sample of a start bit reads 0. -/
  | startBitSeen
  /-- CHARACTER_RECEIVED, R4: the data bits, and whether the stop bit was sampled at 1. -/
  | characterReceived (data : Byte) (stopBit : Bool)
  /-- FRAME_END, R5: the line has been idle for 1 ct after the last stop bit. -/
  | frameEnd
  /-- ENTRY_AGED, R116: the entry of a key reaches the age limit. -/
  | entryAged (sender : Addr) (cls : Cls)
  /-- QUIET_LIMIT_REACHED, R124. -/
  | quietLimitReached
  /-- PERIODIC_TRANSFER, R159. -/
  | periodicTransfer
  /-- ECHO_CLEAN, R8: the end of the last stop bit of an own frame whose characters all matched. -/
  | echoClean
  /-- ECHO_FAILURE, R8: the end of the stop bit of a mismatched character, or of one without an echo. -/
  | echoFailure
  /-- CUT, R59: the end of the character in progress while a change of state waits for it. -/
  | cut
  /-- SKIP_EXPIRY, R29: 2 ct have run since the phase start. -/
  | skipExpiry
  /-- COLD_START_WAIT_EXPIRY, R41. -/
  | coldStartWaitExpiry
  /-- FALLING_EDGE, R4: LRX falls. -/
  | fallingEdge
  /-- FALSE_START, R4: the middle sample of a start bit reads 1. -/
  | falseStart
  /-- BREAK_ENDED, R4: LRX reads 1 again. -/
  | breakEnded
  /-- PORT_BYTE_COMPLETED, R166: eight rising edges of SCK have completed the byte on SDI. -/
  | portByteCompleted (sdi : Byte)
  /-- TRANSACTION_END, R168: SEL_N rises after the transaction was taken. -/
  | transactionEnd
  deriving DecidableEq, Repr

/-- The eighteen commands the Local Port knows (10, Command codes and result codes). -/
inductive Command where
  | setup | table | join | leave | rejoin | restart | enable | test | submit | withdraw | completions | fetch
  | status | peers | faults | faultClear | counter | snapshot
  deriving DecidableEq, Repr

end Sys2Proof
end

