-- ==== Sys2Proof/Decode.lean ====
section
/-! DEFINITION. Reading codes: the command byte of a transaction, how many argument bytes a command calls for, and the
table words the host asks about (no row of the table gives bits). -/

namespace Sys2Proof

/-- The command a command byte names, none for a code the Local Port does not know (10, Command codes; R167, R170). -/
def Command.ofCode (b : Byte) : Option Command :=
  match b.toNat with
  | 0x01 => some .setup
  | 0x02 => some .table
  | 0x08 => some .join
  | 0x09 => some .leave
  | 0x0A => some .rejoin
  | 0x0F => some .restart
  | 0x10 => some .enable
  | 0x11 => some .test
  | 0x20 => some .submit
  | 0x21 => some .withdraw
  | 0x22 => some .completions
  | 0x30 => some .fetch
  | 0x40 => some .status
  | 0x41 => some .peers
  | 0x50 => some .faults
  | 0x51 => some .faultClear
  | 0x52 => some .counter
  | 0x53 => some .snapshot
  | _ => none

/-- The command byte of a command (10, Command codes). -/
def Command.code : Command → Byte
  | .setup => 0x01
  | .table => 0x02
  | .join => 0x08
  | .leave => 0x09
  | .rejoin => 0x0A
  | .restart => 0x0F
  | .enable => 0x10
  | .test => 0x11
  | .submit => 0x20
  | .withdraw => 0x21
  | .completions => 0x22
  | .fetch => 0x30
  | .status => 0x40
  | .peers => 0x41
  | .faults => 0x50
  | .faultClear => 0x51
  | .counter => 0x52
  | .snapshot => 0x53

/-- A two-byte field, the most-significant byte first (R181). -/
def halfOf (high low : Byte) : Half := high ++ low

/-- How many argument bytes the transaction carries in all, once the argument bytes received so far settle it (R167). For
SUBMIT the header's length field settles it, for TABLE the first argument. -/
def Command.argumentTotal (c : Command) (received : List Byte) : Option Nat :=
  match c with
  | .setup => some 28
  | .table =>
    match received with
    | [] => none
    | l :: _ => some (1 + l.toNat)
  | .submit =>
    match received with
    | _ :: _ :: _ :: high :: low :: _ => some (5 + (halfOf high low).toNat)
    | _ => none
  | .enable | .test | .withdraw | .completions => some 1
  | .peers | .faultClear => some 2
  | .join | .leave | .rejoin | .restart | .fetch | .status | .faults | .counter | .snapshot => some 0

/-- The command that a table word spells: none, because no row of opcode_table.json gives bits (log 25). -/
def decodeTableWord (_nbits _w : Nat) : Option Instr := none

end Sys2Proof
end

