-- ==== Sys2Proof/Config.lean ====
section
/-! DEFINITION. The fixed sizes of the part and the free values: choices the manual leaves open. -/

namespace Sys2Proof

namespace Config

/-- Places of a class queue (R72). -/
def classQueuePlaces : Nat := 8

/-- Places of the completion queue (R79). -/
def completionPlaces : Nat := 16

/-- Places of the delivery queue (R121). -/
def deliveryPlaces : Nat := 16

/-- Places of the reassembly table (R110). -/
def reassemblyPlaces : Nat := 8

/-- Pool blocks of each pool (R71, R108). -/
def poolBlocks : Nat := 64

/-- Bytes of one pool block, and the payload of a full segment (00, Sizes). -/
def blockBytes : Nat := 64

/-- Bytes of the staging area, and of the longest message (R67). -/
def stagingBytes : Nat := 512

/-- The count at which the Frame Unit stops counting characters (R19). -/
def characterLimit : Nat := 300

/-- The skip time of a phase in ct (R29). -/
def skipTime : Nat := 2

/-- The length of the cold-start wait at an own address, in ct (R39). -/
def coldStartWait (own : Addr) : Nat := 48 + 8 * own.val

/-- One order in which the blocks take the events of one phase end.
`countFirst`: the frame's line errors before the period counter's boundary (R161).
`creditFirst`: heard credit before the presence evaluation (R135).
`selectFirst`: the selection of the new phase before the presence evaluation (R91, R139).
The four ranks order the frame's own fault, the Receive Unit's handling of the frame, the aging at the boundary and
the presence evaluation with its notices; the lower rank goes first (R117, R118, R125, R150). DESIGN CHOICE (log 30): with
`selectFirst` the evaluation and its notices come after the selection, so after the other three whatever its rank. -/
structure FrameEndOrder where
  countFirst : Bool
  creditFirst : Bool
  selectFirst : Bool
  fault : Fin 4
  frame : Fin 4
  aging : Fin 4
  presence : Fin 4
  deriving DecidableEq, Repr, Inhabited

/-- FREE VALUE (log 6): the order of the blocks at one phase end. The manual says either order may come first. -/
opaque frameEndOrder : Nat → FrameEndOrder

/-- FREE VALUE (log 7): whether the STOPPING report of an ECHO fault is taken before the failure itself (R53, R57). -/
opaque stoppingReportFirst : Nat → Bool

/-- FREE VALUE (log 31): whether 1 ct of idle line has passed since an own transmission that the receiver did not hear, when the
next start bit is confirmed while UNALIGNED (R5, R11). -/
opaque unheardFrameOver : Nat → Bool

/-- FREE VALUE (log 9): whether an unknown command code is answered BUSY rather than UNKNOWN while a soft reset waits to
take effect (R63, R167, R170). -/
opaque unknownAnsweredBusy : Bool

/-- The order used where no two of the ordered events meet, so that every order gives the same state. -/
def FrameEndOrder.plain : FrameEndOrder :=
  ⟨true, true, false, 0, 1, 2, 3⟩

end Config

end Sys2Proof
end

