-- ==== Sys2Proof/Machine/State.lean ====
section
/-! DEFINITION. The state of the block: one structure per functional block (00, Functional blocks), the configuration
items, the reset input, and the queue of waiting commands; and the state after reset. -/

namespace Sys2Proof.Machine

/-! ### Configuration items (09, table under SETUP) -/

/-- Presence policy (R137, R138). -/
inductive PresencePolicy where
  | tolerant | strict
  deriving DecidableEq, Repr

/-- Unreachable policy (R89). -/
inductive UnreachablePolicy where
  | keep | discard
  deriving DecidableEq, Repr

/-- Counter selection (R157). -/
inductive CounterSelection where
  | framing | crc | pattern | framingCrc
  deriving DecidableEq, Repr

/-- Report mode (R159, R160). -/
inductive ReportMode where
  | onDemand | periodic
  deriving DecidableEq, Repr

/-- Capture mode of presence or quality changes (R142). -/
inductive CaptureMode where
  | any | loss
  deriving DecidableEq, Repr

/-- Mode of a request line (R178, R179). -/
inductive LineMode where
  | mode0 | mode1
  deriving DecidableEq, Repr

/-- INT drive (R177). -/
inductive IntDrive where
  | openDrainLow | pushPullLow | pushPullHigh
  deriving DecidableEq, Repr

/-- Every item SETUP writes, in the order of its arguments (R171; 10, SETUP). -/
structure Items where
  ownAddress : Addr
  divisor : Half
  presence : PresencePolicy
  unreachable : UnreachablePolicy
  classMap : Vector Cls 8
  masks : KindSet
  /-- A set bit is STOPPING. -/
  severities : KindSet
  selection : CounterSelection
  reportMode : ReportMode
  /-- N -/
  reportPeriod : Nat
  /-- A -/
  ageLimit : Nat
  trigger : Nat
  /-- Q -/
  quietLimit : Nat
  presenceCapture : CaptureMode
  qualityCapture : CaptureMode
  dlvMode : LineMode
  subMode : LineMode
  intDrive : IntDrive
  deriving DecidableEq, Repr

/-- The defaults after a full reset (09, table under SETUP). -/
def Items.default : Items where
  ownAddress := 0
  divisor := 1
  presence := .tolerant
  unreachable := .keep
  classMap := #v[0, 0, 1, 1, 2, 2, 3, 3]
  masks := 0
  severities := 0
  selection := .framingCrc
  reportMode := .onDemand
  reportPeriod := 16
  ageLimit := 4
  trigger := 1
  quietLimit := 2
  presenceCapture := .any
  qualityCapture := .any
  dlvMode := .mode0
  subMode := .mode0
  intDrive := .openDrainLow

/-! ### Line Interface -/

/-- The receiver's five states (01, The receiver). In `character` the start bit is confirmed or not yet (R4). -/
inductive Receiver where
  | off
  | settling
  | idle
  | character (confirmed : Bool)
  | brk
  deriving DecidableEq, Repr

/-- A transmission in progress (R6, R8): the intended bytes, how many of them have matched their echo, and whether the
character on the line has met a mismatching echo. -/
structure Transmission where
  bytes : List Byte
  matched : Nat
  mismatch : Bool
  deriving DecidableEq, Repr

/-- Line Interface. The driver is ON, and LDE raised, exactly while `tx` is present (R6). -/
structure Lif where
  receiver : Receiver
  tx : Option Transmission
  /-- Consecutive echo failure count, 0 to 3 (R10). -/
  echoFailures : Nat
  /-- The ct of R5 has run out with an edge not yet confirmed; the frame end waits for its middle sample. -/
  frameEndDue : Bool
  deriving DecidableEq, Repr

/-! ### Frame Unit -/

/-- A character as the receiver completes it: its data bits, and whether its stop bit was sampled at 1 (R4). -/
structure RxChar where
  data : Byte
  good : Bool
  deriving DecidableEq, Repr

/-- The frame on the line (R11, R19, R36): the characters gathered, whether it is an own frame, whether its first start
bit has been confirmed, whether the Cycle Tracker was ALIGNED at that moment, and whether a character past the 300 that are
kept had a framing error (log 20). -/
structure Gather where
  chars : List RxChar
  own : Bool
  begun : Bool
  alignedAtStart : Bool
  lateBad : Bool
  deriving DecidableEq, Repr

/-- Frame Unit. -/
structure Fru where
  frame : Option Gather
  /-- Pending test insertion PATTERN (R22). -/
  testPattern : Bool
  /-- Pending test insertion CRC (R22). -/
  testCrc : Bool
  deriving DecidableEq, Repr

/-! ### Cycle Tracker -/

/-- An entry of the phase table (R23). -/
structure PhaseEntry where
  owner : Addr
  floor : Cls
  deriving DecidableEq, Repr

/-- The skip timer (R29). In `awaitingSample` its 2 ct have run out and the decision waits for the middle sample of an edge. -/
inductive SkipTimer where
  | stopped
  | running (ct : Nat)
  | awaitingSample
  deriving DecidableEq, Repr

/-- Cycle Tracker. -/
structure Ctr where
  /-- The phase table; L is its length. -/
  table : List PhaseEntry
  digest : Byte
  aligned : Bool
  p : Phase
  c : Cycle
  whole : Bool
  skip : SkipTimer
  /-- The cold-start wait: stopped, or running with its length in ct. -/
  coldWait : Option Nat
  hold : Bool
  coldAlignPending : Bool
  deriving DecidableEq, Repr

/-! ### Station Controller -/

/-- The five station states (R47). -/
inductive Station where
  | config | listen | cold | active | silent
  deriving DecidableEq, Repr

/-- A change of state that waits for the cut (R59). -/
inductive Exit where
  | toSilent | toConfig
  deriving DecidableEq, Repr

/-- The soft reset of R63: none; armed by a RESTART whose SEL_N has not risen; waiting for the cut after that rise. -/
inductive SoftReset where
  | none | armed | waiting
  deriving DecidableEq, Repr

/-- Station Controller. -/
structure Stc where
  station : Station
  coldAttempts : Nat
  stationCause : Bool
  pendingExit : Option Exit
  softReset : SoftReset
  deriving DecidableEq, Repr

/-! ### Transmit Scheduler -/

/-- A message record's state (R74): only a STARTED record has a message number and segments sent. -/
inductive MsgState where
  | queued
  | started (number : MsgNo) (sent : Nat)
  deriving DecidableEq, Repr

/-- A message record with the contents of its pool blocks in payload order (R69). -/
structure Message where
  tag : Tag
  cls : Cls
  destination : Byte
  length : Nat
  blocks : List (List Byte)
  state : MsgState
  deriving DecidableEq, Repr

/-- How a message left its class queue (R79). -/
inductive SendOutcome where
  | sent | withdrawn | unreachable
  deriving DecidableEq, Repr

/-- A completion record (R79). -/
structure Completion where
  tag : Tag
  cls : Cls
  outcome : SendOutcome
  deriving DecidableEq, Repr

/-- The frame in flight (R97, R98). For DATA it names the message and the segment index; `last` marks the last segment,
for which a completion place is reserved (R96). -/
inductive InFlight where
  | fill
  | data (tag : Tag) (index : Nat) (last : Bool)
  deriving DecidableEq, Repr

/-- Transmit Scheduler. -/
structure Txs where
  staging : List Byte
  /-- Free pool blocks of the transmit pool. -/
  free : Nat
  /-- The four class queues, heads first. -/
  queues : Vector (List Message) 4
  /-- Message number counters, one per class. -/
  numbers : Vector MsgNo 4
  completions : List Completion
  current : Option Tag
  /-- The resume stack, its top first. -/
  stack : List Tag
  inFlight : Option InFlight
  deriving DecidableEq, Repr

/-! ### Receive Unit -/

/-- A reassembly entry (R110). Bytes so far are 64 times the next index. -/
structure Entry where
  sender : Addr
  cls : Cls
  number : MsgNo
  broadcast : Bool
  next : Nat
  blocks : List (List Byte)
  age : Nat
  deriving DecidableEq, Repr

/-- A delivery record (R121). -/
structure Delivery where
  sender : Addr
  cls : Cls
  broadcast : Bool
  length : Nat
  blocks : List (List Byte)
  cycle : Cycle
  deriving DecidableEq, Repr

/-- Receive Unit. The reassembly table has no order of its own; it is kept by ascending sender and class (log 16). -/
structure Rxu where
  segBuf : List Byte
  /-- Free pool blocks of the receive pool. -/
  free : Nat
  table : List Entry
  delivery : List Delivery
  quiet : Nat
  quietFlag : Bool
  deriving DecidableEq, Repr

/-! ### Peer Monitor -/

/-- Presence of a peer record (R131). -/
inductive Presence where
  | self | notScheduled | unseen | present | fading | absent
  deriving DecidableEq, Repr

/-- Quality of a peer record (R131, R140). -/
inductive Quality where
  | unmeasured | good | poor
  deriving DecidableEq, Repr

/-- A peer record (R131). -/
structure Peer where
  presence : Presence
  silentRun : Nat
  returnRun : Nat
  quality : Quality
  lastErrors : Option Nat
  mismatch : Bool
  lastHeard : Option Cycle
  owned : Nat
  presenceChanged : Bool
  qualityChanged : Bool
  deriving DecidableEq, Repr

/-- Peer Monitor. -/
structure Pmn where
  peers : Vector Peer 32
  marks : Vector Bool 32
  deriving DecidableEq, Repr

/-! ### Fault Unit -/

/-- The ten fault kinds, in the order of their codes (08; 10, Sets and codes). -/
inductive FaultKind where
  | framing | format | crc | digest | foreign | sequence | noSpace | aged | echo | slip
  deriving DecidableEq, Repr

/-- The first-fault record when it is valid (R151). The captured byte count is the length of `bytes`. -/
structure FirstFault where
  kind : FaultKind
  sender : Option Addr
  cls : Option Cls
  phase : Phase
  cycle : Cycle
  bytes : List Byte
  deriving DecidableEq, Repr

/-- Fault Unit. -/
structure Flt where
  flags : KindSet
  first : Option FirstFault
  lineErrors : Half
  liveOverflow : Bool
  snapshot : Half
  snapOverflow : Bool
  reportReady : Bool
  /-- Report period counter. -/
  period : Nat
  deriving DecidableEq, Repr

/-! ### Local Port -/

/-- Transaction state (R166). -/
inductive PortState where
  | idle | command | arguments | answer | discard
  deriving DecidableEq, Repr

/-- Local Port. -/
structure Lpt where
  state : PortState
  /-- Command and argument bytes received in the transaction. -/
  byteCount : Nat
  /-- The command whose arguments are being counted. -/
  command : Option Command
  /-- Argument bytes received, but for the payload of SUBMIT, which goes to the staging area (R67). -/
  args : List Byte
  /-- The result code and reply bytes still to be sent. -/
  reply : List Byte
  /-- The byte last sent on SDO, none while SDO is released. -/
  sdo : Option Byte
  enables : CauseSet
  dlvReq : Bool
  subReq : Bool
  deriving DecidableEq, Repr

/-- The whole block. -/
structure State where
  lif : Lif
  fru : Fru
  ctr : Ctr
  stc : Stc
  txs : Txs
  rxu : Rxu
  pmn : Pmn
  flt : Flt
  lpt : Lpt
  /-- The configuration items. -/
  cfg : Items
  /-- RST_N is low. -/
  rstLow : Bool
  /-- The model's own counter of free values used (log 8). -/
  freeCount : Nat
  /-- The commands that wait, first in, first out. -/
  pending : List Instr
  deriving DecidableEq, Repr

/-- No command makes the block stop: every rule of the manual gives a next state. -/
inductive Fault where
  deriving DecidableEq, Repr

/-- Why a command has no meaning. -/
inductive Refusal where
  /-- Raised by an arm of `exec` for a row that has no meaning yet. Safe: nothing is claimed of it. No arm raises it. -/
  | notModelled (mnemonic : String)
  deriving DecidableEq, Repr

/-! ### One update per block -/

/-- `s` with another Line Interface. -/
def State.withLif (s : State) (x : Lif) : State := { s with lif := x }

/-- `s` with another Frame Unit. -/
def State.withFru (s : State) (x : Fru) : State := { s with fru := x }

/-- `s` with another Cycle Tracker. -/
def State.withCtr (s : State) (x : Ctr) : State := { s with ctr := x }

/-- `s` with another Station Controller. -/
def State.withStc (s : State) (x : Stc) : State := { s with stc := x }

/-- `s` with another Transmit Scheduler. -/
def State.withTxs (s : State) (x : Txs) : State := { s with txs := x }

/-- `s` with another Receive Unit. -/
def State.withRxu (s : State) (x : Rxu) : State := { s with rxu := x }

/-- `s` with another Peer Monitor. -/
def State.withPmn (s : State) (x : Pmn) : State := { s with pmn := x }

/-- `s` with another Fault Unit. -/
def State.withFlt (s : State) (x : Flt) : State := { s with flt := x }

/-- `s` with another Local Port. -/
def State.withLpt (s : State) (x : Lpt) : State := { s with lpt := x }

/-- `s` with other configuration items. -/
def State.withCfg (s : State) (x : Items) : State := { s with cfg := x }

/-- `s` with another level of RST_N. -/
def State.withRstLow (s : State) (x : Bool) : State := { s with rstLow := x }

/-- `s` with another count of free values used. -/
def State.withFreeCount (s : State) (x : Nat) : State := { s with freeCount := x }

/-- `s` with another queue of commands. -/
def State.withPending (s : State) (x : List Instr) : State := { s with pending := x }

/-! ### Reset -/

/-- A peer record right after a derivation that gives it this presence and owned phase count (R132). -/
def Peer.derived (presence : Presence) (owned : Nat) : Peer where
  presence := presence
  silentRun := 0
  returnRun := 0
  quality := .unmeasured
  lastErrors := none
  mismatch := false
  lastHeard := none
  owned := owned
  presenceChanged := false
  qualityChanged := false

/-- The machine after the full reset, once RST_N is high (R64 and the tables of R46, R83, R104, R130, R147, R165, R180). -/
def State.reset : State where
  lif := { receiver := .off, tx := none, echoFailures := 0, frameEndDue := false }
  fru := { frame := none, testPattern := false, testCrc := false }
  ctr := { table := [], digest := 0, aligned := false, p := 0, c := 0, whole := false, skip := .stopped,
           coldWait := none, hold := false, coldAlignPending := false }
  stc := { station := .config, coldAttempts := 0, stationCause := false, pendingExit := none, softReset := .none }
  txs := { staging := [], free := Config.poolBlocks, queues := Vector.replicate 4 [], numbers := Vector.replicate 4 0,
           completions := [], current := none, stack := [], inFlight := none }
  rxu := { segBuf := [], free := Config.poolBlocks, table := [], delivery := [], quiet := 0, quietFlag := false }
  pmn := { peers := Vector.ofFn fun a => Peer.derived (if a = 0 then .self else .notScheduled) 0,
           marks := Vector.replicate 32 false }
  flt := { flags := 0, first := none, lineErrors := 0, liveOverflow := false, snapshot := 0, snapOverflow := false,
           reportReady := false, period := 0 }
  lpt := { state := .idle, byteCount := 0, command := none, args := [], reply := [], sdo := none, enables := 0,
           dlvReq := false, subReq := true }
  cfg := Items.default
  rstLow := false
  freeCount := 0
  pending := []

end Sys2Proof.Machine
end

