-- ==== Sys2Proof/Machine/Frames.lean ====
section
/-! DEFINITION. What stands on the line: characters, the CRC-16, the fill pattern, the table's digest, the bytes of each
frame kind, and the check order of received frames (01; R25; 10, Line frames). -/

namespace Sys2Proof.Machine

/-! ### Bits and bytes -/

/-- The line levels of one character: start bit 0, the data bits least-significant first, stop bit 1 (R2). -/
def characterBits (b : Byte) : List Bool :=
  false :: ((List.range 8).map fun i => b.getLsbD i) ++ [true]

/-- The line levels of a frame, one per bit time: its characters without a gap (R2). -/
def frameBits (bytes : List Byte) : List Bool := bytes.flatMap characterBits

/-- The bits of a byte on the local port, most-significant first (R166). -/
def portBits (b : Byte) : List Bool :=
  (List.range 8).map fun i => b.getLsbD (7 - i)

/-- The byte of eight levels on the local port, the most-significant first (R166, R181). -/
def byteOfPortBits (levels : List Bool) : Byte := BitVec.ofNat 8 (levels.foldl (fun n b => 2 * n + b.toNat) 0)

/-- The bytes that the levels of SDI at successive rising edges of SCK complete: each group of eight completes one, and fewer
than eight at the end complete none (R166). -/
def clockedBytes (levels : List Bool) : List Byte :=
  (List.range (levels.length / 8)).map fun i => byteOfPortBits ((levels.drop (8 * i)).take 8)

/-- The low eight bits of a two-byte value. -/
def lowByte (h : Half) : Byte := h.setWidth 8

/-- The high eight bits of a two-byte value. -/
def highByte (h : Half) : Byte := (h >>> 8).setWidth 8

/-- Byte `i` of a run of bytes; 0 past its end. -/
def byteAt (bytes : List Byte) (i : Nat) : Byte := bytes.getD i 0

/-! ### CRC-16 (R16) -/

/-- One data bit into the CRC register. -/
def crcBit (r : Half) (b : Bool) : Half :=
  if r.getLsbD 0 = b then r >>> 1 else (r >>> 1) ^^^ 0x8408

/-- One byte into the CRC register, least-significant bit first. -/
def crcByte (r : Half) (b : Byte) : Half :=
  (List.range 8).foldl (fun r i => crcBit r (b.getLsbD i)) r

/-- The CRC-16 of a run of bytes. -/
def crc16 (bytes : List Byte) : Half := bytes.foldl crcByte 0xFFFF

/-! ### The table's digest (R25) -/

/-- One shift of the digest register. -/
def digestShift (r : Byte) : Byte :=
  if r.getLsbD 7 then (r <<< 1) ^^^ 0x07 else r <<< 1

/-- One byte into the digest register. -/
def digestByte (r b : Byte) : Byte :=
  (List.range 8).foldl (fun r _ => digestShift r) (r ^^^ b)

/-- The byte of a table entry: owner × 4 + floor (R25). -/
def entryByte (e : PhaseEntry) : Byte := BitVec.ofNat 8 (e.owner.val * 4 + e.floor.val)

/-- The digest of a table. -/
def tableDigest (table : List PhaseEntry) : Byte :=
  (BitVec.ofNat 8 table.length :: table.map entryByte).foldl digestByte 0

/-! ### The fill pattern (R17) -/

/-- The seed: 4000h + 256 × sender + cycle. -/
def patternSeed (sender : Addr) (cycle : Cycle) : BitVec 15 :=
  BitVec.ofNat 15 (0x4000 + 256 * sender.val + cycle.toNat)

/-- The output of one step: bits 14 and 13 combined. -/
def patternBit (r : BitVec 15) : Bool := r.getLsbD 14 != r.getLsbD 13

/-- The register after one step. -/
def patternNext (r : BitVec 15) : BitVec 15 :=
  (r <<< 1) ||| BitVec.ofNat 15 (patternBit r).toNat

/-- The outputs of `n` steps, in order. -/
def patternOutputs : Nat → BitVec 15 → List Bool
  | 0, _ => []
  | n + 1, r => patternBit r :: patternOutputs n (patternNext r)

/-- A byte from its bits, least-significant first. -/
def byteOfBits : List Bool → Nat
  | [] => 0
  | b :: bs => b.toNat + 2 * byteOfBits bs

/-- Bits cut into bytes, the first bit as bit 0 of the first byte. -/
def bytesOfBits : Nat → List Bool → List Byte
  | 0, _ => []
  | n + 1, bits => BitVec.ofNat 8 (byteOfBits (bits.take 8)) :: bytesOfBits n (bits.drop 8)

/-- The eight pattern bytes of a FILL or COLD frame. -/
def patternBytes (sender : Addr) (cycle : Cycle) : List Byte :=
  bytesOfBits 8 (patternOutputs 64 (patternSeed sender cycle))

/-- In how many bits two bytes differ. -/
def bitDifference (a b : Byte) : Nat :=
  ((List.range 8).filter fun i => a.getLsbD i != b.getLsbD i).length

/-! ### Building frames (R12 to R15; 10, Line frames) -/

/-- The three frame kinds (R12). -/
inductive FrameKind where
  | data | fill | cold
  deriving DecidableEq, Repr

/-- The kind's code in bits 7:5 of byte 1. -/
def FrameKind.code : FrameKind → Nat
  | .data => 1
  | .fill => 2
  | .cold => 3

/-- The kind a code names. -/
def FrameKind.ofCode (n : Nat) : Option FrameKind :=
  match n with
  | 1 => some .data
  | 2 => some .fill
  | 3 => some .cold
  | _ => none

/-- The lead byte. -/
def leadByte : Byte := 0xC3

/-- The four header bytes after the lead (R12). -/
def headerBytes (kind : FrameKind) (sender : Addr) (phase : Phase) (cycle : Cycle) (digest : Byte) : List Byte :=
  [BitVec.ofNat 8 (kind.code * 32 + sender.val), BitVec.ofNat 8 phase.val, cycle, digest]

/-- One segment as the Transmit Scheduler hands it over (R97). -/
structure Segment where
  destination : Byte
  cls : Cls
  number : MsgNo
  index : Nat
  last : Bool
  payload : List Byte
  deriving DecidableEq, Repr

/-- Byte 6 of a DATA frame: class, message number, segment index, last flag (10, DATA frame). -/
def descriptorByte (g : Segment) : Byte :=
  BitVec.ofNat 8 (g.cls.val * 64 + g.number.toNat * 16 + g.index * 2 + g.last.toNat)

/-- The CRC-16 of a run as its two line bytes, low byte first. -/
def crcBytes (covered : List Byte) : List Byte := [lowByte (crc16 covered), highByte (crc16 covered)]

/-- The pending test insertions as the builder takes them (R22). -/
structure Insertions where
  pattern : Bool
  crc : Bool
  deriving DecidableEq, Repr

/-- The two CRC bytes with the CRC insertion applied: all eight bits of the low byte inverted (R22). -/
def insertCrc (on : Bool) (bytes : List Byte) : List Byte :=
  match on, bytes with
  | true, low :: rest => ~~~low :: rest
  | _, _ => bytes

/-- The pattern bytes with the PATTERN insertion applied: bit 0 of pattern byte 0 inverted (R22). -/
def insertPattern (on : Bool) (bytes : List Byte) : List Byte :=
  match on, bytes with
  | true, b :: rest => (b ^^^ 1) :: rest
  | _, _ => bytes

/-- The bytes of a DATA frame (R13, R15, R22). -/
def dataFrame (sender : Addr) (phase : Phase) (cycle : Cycle) (digest : Byte) (g : Segment) (ins : Insertions) : List Byte :=
  let covered := headerBytes .data sender phase cycle digest ++
    [g.destination, descriptorByte g, BitVec.ofNat 8 g.payload.length] ++ g.payload
  leadByte :: covered ++ insertCrc ins.crc (crcBytes covered)

/-- The bytes of a FILL or COLD frame (R14, R15, R22). -/
def shortFrame (kind : FrameKind) (sender : Addr) (phase : Phase) (cycle : Cycle) (digest : Byte) (ins : Insertions) :
    List Byte :=
  let covered := headerBytes kind sender phase cycle digest
  leadByte :: covered ++ insertCrc ins.crc (crcBytes covered) ++ insertPattern ins.pattern (patternBytes sender cycle)

/-! ### Reading and checking received frames (R18 to R20) -/

/-- The outcome of a received frame (R20). -/
inductive FrameOutcome where
  | clean | framing | format | crc | digest | foreign
  deriving DecidableEq, Repr

/-- The data bits of the characters, framing errors included (R19). -/
def Gather.bytes (f : Gather) : List Byte := f.chars.map RxChar.data

/-- The frame kind that byte 1 carries. -/
def kindOf (bytes : List Byte) : Option FrameKind := FrameKind.ofCode ((byteAt bytes 1).toNat / 32)

/-- The sender that byte 1 carries. -/
def senderOf (bytes : List Byte) : Addr := Fin.ofNat 32 (byteAt bytes 1).toNat

/-- The phase that byte 2 carries, its reserved bits apart. -/
def phaseOf (bytes : List Byte) : Phase := Fin.ofNat 64 (byteAt bytes 2).toNat

/-- The cycle number that byte 3 carries. -/
def cycleOf (bytes : List Byte) : Cycle := byteAt bytes 3

/-- The destination of a DATA frame. -/
def destinationOf (bytes : List Byte) : Byte := byteAt bytes 5

/-- The class of a DATA frame. -/
def classOf (bytes : List Byte) : Cls := Fin.ofNat 4 ((byteAt bytes 6).toNat / 64)

/-- The message number of a DATA frame. -/
def numberOf (bytes : List Byte) : MsgNo := BitVec.ofNat 2 ((byteAt bytes 6).toNat / 16)

/-- The segment index of a DATA frame. -/
def indexOf (bytes : List Byte) : Nat := (byteAt bytes 6).toNat / 2 % 8

/-- The last flag of a DATA frame. -/
def lastOf (bytes : List Byte) : Bool := (byteAt bytes 6).getLsbD 0

/-- The length field of a DATA frame. -/
def lengthOf (bytes : List Byte) : Nat := (byteAt bytes 7).toNat

/-- A destination between 32 and 254, which no message and no DATA frame may name (00, Addresses). -/
def badDestination (d : Byte) : Bool := decide (32 ≤ d.toNat) && decide (d.toNat ≤ 254)

/-- Check 2 of R20, structure. -/
def structureOk (bytes : List Byte) : Bool :=
  decide (2 ≤ bytes.length) && byteAt bytes 0 == leadByte &&
    match kindOf bytes with
    | none => false
    | some .data => decide (8 ≤ bytes.length) && bytes.length == 8 + lengthOf bytes + 2
    | some .fill | some .cold => bytes.length == 15

/-- How many bytes after the lead the CRC covers (R16). -/
def coveredLength (bytes : List Byte) : Nat :=
  match kindOf bytes with
  | some .data => 7 + lengthOf bytes
  | _ => 4

/-- Check 3 of R20: the two CRC bytes agree with the CRC of the bytes received (R16). -/
def crcOk (bytes : List Byte) : Bool :=
  (bytes.drop (1 + coveredLength bytes)).take 2 == crcBytes ((bytes.drop 1).take (coveredLength bytes))

/-- Check 4 of R20, values. -/
def valuesOk (table : List PhaseEntry) (bytes : List Byte) : Bool :=
  decide ((byteAt bytes 2).toNat < 64) && decide ((byteAt bytes 2).toNat < table.length) &&
    match kindOf bytes with
    | some .cold => cycleOf bytes == 0
    | some .data =>
      decide (1 ≤ lengthOf bytes) && decide (lengthOf bytes ≤ 64) && !badDestination (destinationOf bytes) &&
        (lastOf bytes || lengthOf bytes == 64) && (indexOf bytes != 7 || lastOf bytes)
    | _ => true

/-- Check 6 of R20: the sender owns the announced phase in the own table. -/
def ownerOk (table : List PhaseEntry) (bytes : List Byte) : Bool :=
  match table[(phaseOf bytes).val]? with
  | some e => e.owner == senderOf bytes
  | none => false

/-- Check 1 of R20: some character of the frame had a framing error, one past the counted 300 included (R19). -/
def framingError (f : Gather) : Bool := f.lateBad || !f.chars.all RxChar.good

/-- The check order of R20, on the table and digest that stand when the frame ends. -/
def checkFrame (table : List PhaseEntry) (digest : Byte) (f : Gather) : FrameOutcome :=
  let bytes := f.bytes
  if framingError f then .framing
  else if !structureOk bytes then .format
  else if !crcOk bytes then .crc
  else if !valuesOk table bytes then .format
  else if byteAt bytes 4 != digest then .digest
  else if !ownerOk table bytes then .foreign
  else .clean

/-- Whether the pattern of a received frame is compared (R18). -/
def patternCompared (f : Gather) : Bool :=
  f.chars.length == 15 && byteAt f.bytes 0 == leadByte &&
    (kindOf f.bytes == some .fill || kindOf f.bytes == some .cold) &&
    (f.chars.take 7).all RxChar.good && crcOk f.bytes

/-- The differing bits of received pattern characters; a framing error counts 8 (R18). -/
def patternDifference : List RxChar → List Byte → Nat
  | ch :: chs, b :: bs => (if ch.good then bitDifference ch.data b else 8) + patternDifference chs bs
  | _, _ => 0

/-- The pattern error count e of a compared frame (R18). -/
def patternErrors (f : Gather) : Option Nat :=
  if patternCompared f then
    some (patternDifference (f.chars.drop 7) (patternBytes (senderOf f.bytes) (cycleOf f.bytes)))
  else none

/-- The sender handed to the Fault Unit: that of the second character when it arrived without a framing error (R21). -/
def faultSender (f : Gather) : Option Addr :=
  match f.chars with
  | _ :: ch :: _ => if ch.good then some (senderOf f.bytes) else none
  | _ => none

/-- Up to the first eight bytes of a frame, for fault capture (R19, R153). -/
def captured (bytes : List Byte) : List Byte := bytes.take 8

/-- Whether the next character of a frame is a payload byte of a DATA frame (R19, R105). -/
def expectsPayload (bytes : List Byte) : Bool :=
  kindOf bytes == some .data && decide (8 ≤ bytes.length) && decide (bytes.length < 8 + lengthOf bytes)

end Sys2Proof.Machine
end

