-- ==== Sys2Proof/Machine/Flags.lean ====
section
/-! DEFINITION. Fault-kind sets, interrupt causes, the pins INT, LDE, LTX and SDO, the two request lines and the line error
counter. -/

namespace Sys2Proof.Machine

/-! ### Sets (10, Sets and codes) -/

/-- The bit of a fault kind in a fault-kind set. -/
def FaultKind.bit : FaultKind → Nat
  | .framing => 0
  | .format => 1
  | .crc => 2
  | .digest => 3
  | .foreign => 4
  | .sequence => 5
  | .noSpace => 6
  | .aged => 7
  | .echo => 8
  | .slip => 9

/-- The kind code of the first-fault record: 1 to 10. -/
def FaultKind.code (k : FaultKind) : Nat := k.bit + 1

/-- Whether a set names a kind. -/
def hasKind (set : KindSet) (k : FaultKind) : Bool := set.getLsbD k.bit

/-- A set with a kind added. -/
def addKind (set : KindSet) (k : FaultKind) : KindSet := set ||| (1#10 <<< k.bit)

/-- A set without the kinds of another set. -/
def removeKinds (set gone : KindSet) : KindSet := set &&& ~~~gone

/-- The six interrupt causes in priority order (R176). -/
inductive Cause where
  | station | fault | delivery | completion | peer | report
  deriving DecidableEq, Repr

/-- The bit of a cause in a cause set. -/
def Cause.bit : Cause → Nat
  | .station => 0
  | .fault => 1
  | .delivery => 2
  | .completion => 3
  | .peer => 4
  | .report => 5

/-- The code of a cause, 1 to 6; NONE is 0. -/
def Cause.code (k : Cause) : Nat := k.bit + 1

/-- The causes from the highest priority down (R176). -/
def Cause.byPriority : List Cause := [.station, .fault, .delivery, .completion, .peer, .report]

/-! ### The causes (R65, R81, R126, R143, R156, R163) -/

/-- DELIVERY: the record count is at or above the trigger, or the quiet flag is set (R126). -/
def deliveryCause (s : State) : Bool := decide (s.cfg.trigger ≤ s.rxu.delivery.length) || s.rxu.quietFlag

/-- PEER: some record holds a change flag that is set (R143). -/
def peerCause (s : State) : Bool := s.pmn.peers.toList.any fun r => r.presenceChanged || r.qualityChanged

/-- Whether a cause is pending. -/
def causePending (s : State) : Cause → Bool
  | .station => s.stc.stationCause
  | .fault => s.flt.flags != 0
  | .delivery => deliveryCause s
  | .completion => !s.txs.completions.isEmpty
  | .peer => peerCause s
  | .report => s.flt.reportReady || s.flt.liveOverflow

/-- Whether a cause's enable is on (R174). -/
def causeEnabled (s : State) (k : Cause) : Bool := s.lpt.enables.getLsbD k.bit

/-- The identified cause: the pending enabled cause that stands highest (R176). -/
def identifiedCause (s : State) : Option Cause :=
  Cause.byPriority.find? fun k => causePending s k && causeEnabled s k

/-- INT is active while a pending cause has its enable on (R176). -/
def intActive (s : State) : Bool := Cause.byPriority.any fun k => causePending s k && causeEnabled s k

/-- What a pin shows. -/
inductive PinLevel where
  | low | high | released
  deriving DecidableEq, Repr

/-- The INT pin in the drive SETUP selects (R177). -/
def intPin (s : State) : PinLevel :=
  match s.cfg.intDrive, intActive s with
  | .openDrainLow, true => .low
  | .openDrainLow, false => .released
  | .pushPullLow, true => .low
  | .pushPullLow, false => .high
  | .pushPullHigh, true => .high
  | .pushPullHigh, false => .low

/-- The LDE pin: raised while the driver is ON (R6). -/
def lde (s : State) : Bool := s.lif.tx.isSome

/-- The LTX pin in the bit time `bit`, counted from the start of the transmission (R2, R6): the levels of the frame's
characters, and 1 after the last stop bit and while no frame is sent (log 19). -/
def ltx (s : State) (bit : Nat) : Bool :=
  match s.lif.tx with
  | none => true
  | some t => (frameBits t.bytes).getD bit true

/-- The SDO pin at one of the eight bits of the byte last sent, the most-significant first; none while SDO is released to high
impedance (R166, R181; log 19). -/
def sdoPin (s : State) (bit : Fin 8) : Option Bool := s.lpt.sdo.map fun b => (portBits b).getD bit.val false

/-! ### The request lines (R178, R179) -/

/-- The condition that makes DLV_REQ active: in mode 0 a waiting record, in mode 1 the trigger or the quiet flag. -/
def dlvCondition (s : State) : Bool :=
  match s.cfg.dlvMode with
  | .mode0 => !s.rxu.delivery.isEmpty
  | .mode1 => deliveryCause s

/-- DLV_REQ after a change of the delivery queue or the quiet flag (R178). In mode 1 a line that is active stays active until
the queue is empty. -/
def dlvNext (s : State) : Bool :=
  dlvCondition s || (s.cfg.dlvMode == .mode1 && s.lpt.dlvReq && !s.rxu.delivery.isEmpty)

/-- The condition that makes SUB_REQ active: in mode 0 eight free pool blocks, in mode 1 thirty-two. -/
def subCondition (s : State) : Bool :=
  match s.cfg.subMode with
  | .mode0 => decide (8 ≤ s.txs.free)
  | .mode1 => decide (32 ≤ s.txs.free)

/-- SUB_REQ after a change of the free count (R179). In mode 1 a line that is active stays active down to eight free pool
blocks. -/
def subNext (s : State) : Bool :=
  subCondition s || (s.cfg.subMode == .mode1 && s.lpt.subReq && decide (8 ≤ s.txs.free))

/-- The Local Port drives DLV_REQ after a change of the delivery queue or the quiet flag (R127, R178). -/
def driveDlv (s : State) : State := s.withLpt { s.lpt with dlvReq := dlvNext s }

/-- The Local Port drives SUB_REQ after a change of the transmit pool's free count (R84, R179). -/
def driveSub (s : State) : State := s.withLpt { s.lpt with subReq := subNext s }

/-- What SETUP does to the request lines: each line takes its condition as it stands (R172, R178, R179). -/
def settleLines (s : State) : State :=
  s.withLpt { s.lpt with dlvReq := dlvCondition s, subReq := subCondition s }

/-! ### The line error counter (R157 to R163) -/

/-- A raise of the counter by `n`, saturating at 65535 with the live overflow flag (R158). -/
def countErrors (n : Nat) (f : Flt) : Flt :=
  if 65535 < f.lineErrors.toNat + n then { f with lineErrors := 0xFFFF, liveOverflow := true }
  else { f with lineErrors := BitVec.ofNat 16 (f.lineErrors.toNat + n) }

/-- A transfer into the snapshot (R159, R160). -/
def transfer (f : Flt) : Flt :=
  { f with snapshot := f.lineErrors, snapOverflow := f.liveOverflow, lineErrors := 0, liveOverflow := false,
           reportReady := true }

/-- A cycle boundary at the period counter (R159): in PERIODIC mode it is raised, and at N a transfer is made. -/
def periodBoundary (cfg : Items) (f : Flt) : Flt :=
  match cfg.reportMode with
  | .onDemand => f
  | .periodic =>
    if f.period + 1 = cfg.reportPeriod then { transfer f with period := 0 } else { f with period := f.period + 1 }

end Sys2Proof.Machine
end

