-- ==== Sys2Proof/Machine/Ops.lean ====
section
/-! DEFINITION. Operations that several commands share: owned phases, message records and contexts, the entries to each
station state, and the occurrence of a fault. -/

namespace Sys2Proof.Machine

/-! ### The own phases (R26) -/

/-- L, the length of the phase table. -/
def tableLength (s : State) : Nat := s.ctr.table.length

/-- How many table entries an address owns. -/
def ownedCount (table : List PhaseEntry) (a : Addr) : Nat := (table.filter fun e => e.owner == a).length

/-- Whether the station owns a phase; a station that owns none is listen-only. -/
def ownsPhase (s : State) : Bool := s.ctr.table.any fun e => e.owner == s.cfg.ownAddress

/-- The lowest owned phase. -/
def lowestOwned (s : State) : Phase := Fin.ofNat 64 (s.ctr.table.findIdx fun e => e.owner == s.cfg.ownAddress)

/-! ### Message records -/

/-- ceil(length / 64). -/
def segmentCount (length : Nat) : Nat := (length + 63) / 64

/-- The pool blocks a message record holds. -/
def Message.held (m : Message) : Nat := m.blocks.length

/-- Segments sent: 0 while QUEUED (R74). -/
def Message.sent (m : Message) : Nat :=
  match m.state with
  | .queued => 0
  | .started _ k => k

/-- The message number, absent while QUEUED (R74). -/
def Message.number (m : Message) : Option MsgNo :=
  match m.state with
  | .queued => none
  | .started n _ => some n

/-- The record returned to QUEUED (R102). -/
def Message.returned (m : Message) : Message := { m with state := .queued }

/-- All message records, queue by queue. -/
def messages (t : Txs) : List Message := t.queues.toList.flatten

/-- The record that holds a tag. -/
def findMessage (tag : Tag) (t : Txs) : Option Message := (messages t).find? fun m => m.tag == tag

/-- Every record that holds a tag changed by `f`. -/
def updateMessage (tag : Tag) (f : Message → Message) (t : Txs) : Txs :=
  { t with queues := t.queues.map fun q => q.map fun m => if m.tag == tag then f m else m }

/-- The completion records that count toward 16: those appended and the place reserved for a last segment in flight (R96). -/
def completionsCounted (t : Txs) : Nat :=
  t.completions.length +
    match t.inFlight with
    | some (.data _ _ true) => 1
    | _ => 0

/-- No place is left in the completion queue. -/
def completionsFull (t : Txs) : Bool := decide (Config.completionPlaces ≤ completionsCounted t)

/-- A message leaves its class queue: its pool blocks return, the records behind it move up, and a completion record is
appended at the tail (R71, R72, R79). -/
def depart (m : Message) (outcome : SendOutcome) (t : Txs) : Txs :=
  { t with
    queues := t.queues.map fun q => q.filter fun x => x.tag != m.tag
    free := t.free + (((messages t).filter fun x => x.tag == m.tag).map Message.held).sum
    completions := t.completions ++ [⟨m.tag, m.cls, outcome⟩] }

/-- On an exit from ACTIVE every context is returned to QUEUED and the stack is emptied; a frame in flight and its reserved
place end with it (R101, R102, R103). -/
def returnContexts (t : Txs) : Txs :=
  { t with queues := t.queues.map fun q => q.map Message.returned, current := none, stack := [], inFlight := none }

/-! ### Station state changes (R45, R47; 03) -/

/-- The Cycle Tracker with alignment cleared, its timers stopped, and HOLD and a pending COLD alignment dropped (R45). -/
def clearAlignment (x : Ctr) : Ctr :=
  { x with aligned := false, p := 0, c := 0, whole := false, skip := .stopped, coldWait := none, hold := false,
           coldAlignPending := false }

/-- The cold-start wait started at full length, when the station owns a phase (R39). -/
def startColdWait (s : State) : Option Nat :=
  if ownsPhase s then some (Config.coldStartWait s.cfg.ownAddress) else none

/-- Entry to LISTEN: alignment cleared, the cold-start wait started if a phase is owned (R39, R45). -/
def enterListen (s : State) : State :=
  (s.withCtr { clearAlignment s.ctr with coldWait := startColdWait s }).withStc { s.stc with station := .listen }

/-- Entry to ACTIVE on acquired alignment (R56): cold attempts 0, STATION pending, echo failures 0, HOLD clear, the
cold-start wait stopped. -/
def enterActive (s : State) : State :=
  ((s.withCtr { s.ctr with hold := false, coldWait := none, coldAlignPending := false }).withStc
    { s.stc with station := .active, coldAttempts := 0, stationCause := true }).withLif
    { s.lif with echoFailures := 0 }

/-- Entry to SILENT from LISTEN, COLD or ACTIVE (R45, R58, R65, R102): alignment kept, HOLD clear, the cold-start wait
stopped, a pending COLD alignment dropped, STATION pending, contexts returned to QUEUED. A LEAVE that waits for the cut
still stands (R59). -/
def enterSilent (s : State) : State :=
  ((s.withCtr { s.ctr with hold := false, coldWait := none, coldAlignPending := false }).withStc
    { s.stc with station := .silent, stationCause := true, pendingExit := s.stc.pendingExit.filter (· == .toConfig) }).withTxs
    (returnContexts s.txs)

/-- The pool blocks held by reassembly entries. -/
def entryBlocks (table : List Entry) : Nat := (table.map fun e => e.blocks.length).sum

/-- The pool blocks held by delivery records. -/
def deliveryBlocks (delivery : List Delivery) : Nat := (delivery.map fun d => d.blocks.length).sum

/-- Entry to CONFIG through LEAVE (R62): the receiver OFF and the frame discarded, alignment cleared, test insertions
cleared, contexts returned to QUEUED, the reassembly table emptied without fault. -/
def enterConfig (s : State) : State :=
  { s with
    lif := { s.lif with receiver := .off, tx := none, frameEndDue := false }
    fru := { frame := none, testPattern := false, testCrc := false }
    ctr := clearAlignment s.ctr
    stc := { s.stc with station := .config, pendingExit := none }
    txs := returnContexts s.txs
    rxu := { s.rxu with segBuf := [], table := [], free := s.rxu.free + entryBlocks s.rxu.table } }

/-- The station is in a state that a STOPPING fault leaves (R58). -/
def stoppable : Station → Bool
  | .listen | .cold | .active => true
  | .config | .silent => false

/-- A STOPPING report taken by the Station Controller (R58, R59). While the driver is ON the change waits for the cut, and a
LEAVE that already waits stands. -/
def stoppingReport (s : State) : State :=
  if stoppable s.stc.station then
    if s.lif.tx.isSome then
      s.withStc { s.stc with pendingExit := some (s.stc.pendingExit.getD .toSilent) }
    else enterSilent s
  else s

/-! ### Occurrence of a fault (R149 to R153) -/

/-- What an occurrence carries. -/
abbrev Occurrence := FirstFault

/-- An unmasked occurrence at the flags and the first-fault record (R149, R151). -/
def recordFault (o : Occurrence) (f : Flt) : Flt :=
  { f with flags := addKind f.flags o.kind, first := some (f.first.getD o) }

/-- One occurrence at the Fault Unit (R149): a masked kind has no effect here; an unmasked one sets its flag, fills an
invalid record, and is passed to the Station Controller when its kind is STOPPING. -/
def raise (o : Occurrence) (s : State) : State :=
  if hasKind s.cfg.masks o.kind then s
  else
    let s' := s.withFlt (recordFault o s.flt)
    if hasKind s.cfg.severities o.kind then stoppingReport s' else s'

/-- Occurrences in the order in which they are handed on (R150). -/
def raiseAll (os : List Occurrence) (s : State) : State := os.foldl (fun s o => raise o s) s

/-! ### Derivation of the peer records (R132) -/

/-- The presence a derivation gives an address. -/
def derivedPresence (own a : Addr) (owned : Nat) : Presence :=
  if a = own then .self else if owned = 0 then .notScheduled else .unseen

/-- The Peer Monitor derived afresh from a table and an own address. -/
def derivePeers (table : List PhaseEntry) (own : Addr) : Pmn where
  peers := Vector.ofFn fun a => Peer.derived (derivedPresence own a (ownedCount table a)) (ownedCount table a)
  marks := Vector.replicate 32 false

/-! ### The resets (R63, R64) -/

/-- The full reset with RST_N back at 1: every block at its full-reset values (R64). The waiting commands and the model's
own counter are no part of the block. -/
def fullResetState (s : State) : State :=
  { State.reset with freeCount := s.freeCount, pending := s.pending }

/-- The soft reset takes effect (R63 and the reset tables): kept are the SETUP items, the table and its digest, the status
flags and the first-fault record, and the interrupt enables. DEDUCED (log 14): at the cut the Local Port takes its reset value,
IDLE, also where a transaction stands open. -/
def softResetState (s : State) : State :=
  { State.reset with
    ctr := { State.reset.ctr with table := s.ctr.table, digest := s.ctr.digest }
    pmn := derivePeers s.ctr.table s.cfg.ownAddress
    flt := { State.reset.flt with flags := s.flt.flags, first := s.flt.first }
    lpt := { State.reset.lpt with enables := s.lpt.enables }
    cfg := s.cfg
    rstLow := s.rstLow
    freeCount := s.freeCount
    pending := s.pending }

/-- The change of state that waits for the cut takes effect (R59, R63): a soft reset overtakes the others. -/
def finishExit (s : State) : State :=
  if s.stc.softReset = .waiting then softResetState s
  else
    match s.stc.pendingExit with
    | none => s
    | some .toConfig => enterConfig s
    | some .toSilent =>
      if stoppable s.stc.station then enterSilent s else s.withStc { s.stc with pendingExit := none }

end Sys2Proof.Machine
end

