-- ==== Sys2Proof/Machine/Receive.lean ====
section
/-! DEFINITION. The Receive Unit: the taking of DATA frames, the reassembly table, the delivery queue, and its part of a
cycle boundary (06). -/

namespace Sys2Proof.Machine

/-! ### The segment buffer (R105) -/

/-- A payload byte into the segment buffer: place j for j below 64, further bytes counted and not kept. -/
def bufferPayload (b : Byte) (buf : List Byte) : List Byte := if buf.length < Config.blockBytes then buf ++ [b] else buf

/-! ### The reassembly table (R110) -/

/-- Whether an entry has a key. -/
def Entry.hasKey (sender : Addr) (cls : Cls) (e : Entry) : Bool := e.sender == sender && e.cls == cls

/-- The entry for a key. -/
def findEntry (sender : Addr) (cls : Cls) (x : Rxu) : Option Entry := x.table.find? (Entry.hasKey sender cls)

/-- The entry for a key leaves the table, its pool blocks staying with the caller. -/
def removeEntry (sender : Addr) (cls : Cls) (x : Rxu) : Rxu :=
  { x with table := x.table.filter fun e => !e.hasKey sender cls }

/-- The entries that meet a condition are discarded, and their pool blocks return to the free ones (R108). -/
def discardEntries (which : Entry → Bool) (x : Rxu) : Rxu :=
  { x with table := x.table.filter fun e => !which e, free := x.free + entryBlocks (x.table.filter which) }

/-- The entry for a key is discarded, and its pool blocks return to the free ones. -/
def discardEntry (sender : Addr) (cls : Cls) (x : Rxu) : Rxu := discardEntries (Entry.hasKey sender cls) x

/-- The rank of a key in ascending order of sender, then class (R116). -/
def Entry.rank (e : Entry) : Nat := e.sender.val * 4 + e.cls.val

/-- An entry put into its place by ascending key (log 16). -/
def insertEntry (e : Entry) : List Entry → List Entry
  | [] => [e]
  | x :: xs => if e.rank ≤ x.rank then e :: x :: xs else x :: insertEntry e xs

/-! ### Faults raised here (R120, R152, R153) -/

/-- A taken DATA frame: the fields the rules of 06 read, its first 8 bytes, and p and c at its frame end (R106, R152). -/
structure TakenFrame where
  sender : Addr
  cls : Cls
  number : MsgNo
  index : Nat
  last : Bool
  broadcast : Bool
  /-- The frame's length field, which the Frame Unit has checked. -/
  length : Nat
  payload : List Byte
  cycle : Cycle
  bytes : List Byte
  atPhase : Phase
  atCycle : Cycle
  deriving DecidableEq, Repr

/-- A SEQUENCE or NO_SPACE occurrence of a taken frame. -/
def frameOccurrence (kind : FaultKind) (f : TakenFrame) : Occurrence :=
  ⟨kind, some f.sender, none, f.atPhase, f.atCycle, f.bytes⟩

/-- The AGED occurrence of an entry, with p and c after the advance of the boundary (R152). -/
def agedOccurrence (p : Phase) (c : Cycle) (e : Entry) : Occurrence := ⟨.aged, some e.sender, some e.cls, p, c, []⟩

/-! ### The delivery queue (R121, R124) -/

/-- A record appended to the delivery queue; the quiet counter becomes 0 (R124). -/
def appendDelivery (d : Delivery) (x : Rxu) : Rxu := { x with delivery := x.delivery ++ [d], quiet := 0 }

/-- Room for a delivery record: a free pool block and a place in the delivery queue (R109, R115). -/
def deliveryRoom (x : Rxu) : Bool := decide (0 < x.free) && decide (x.delivery.length < Config.deliveryPlaces)

/-! ### Handling of one taken frame (R107) -/

/-- A whole message in one segment (R109), after step 1. -/
def takeSingle (f : TakenFrame) (s : State) : State :=
  if deliveryRoom s.rxu then
    driveDlv (s.withRxu (appendDelivery ⟨f.sender, f.cls, f.broadcast, f.length, [f.payload], f.cycle⟩
      { s.rxu with free := s.rxu.free - 1 }))
  else raise (frameOccurrence .noSpace f) s

/-- The first segment of a longer message (R111), after step 1. -/
def takeFirst (f : TakenFrame) (s : State) : State :=
  if s.rxu.table.length < Config.reassemblyPlaces ∧ 0 < s.rxu.free then
    s.withRxu { s.rxu with
      free := s.rxu.free - 1
      table := insertEntry ⟨f.sender, f.cls, f.number, f.broadcast, 1, [f.payload], 0⟩ s.rxu.table }
  else raise (frameOccurrence .noSpace f) s

/-- A continuation that agrees with its entry and is not the last (R114). -/
def takeMiddle (f : TakenFrame) (e : Entry) (s : State) : State :=
  if 0 < s.rxu.free then
    s.withRxu { s.rxu with
      free := s.rxu.free - 1
      table := insertEntry { e with next := e.next + 1, blocks := e.blocks ++ [f.payload], age := 0 }
        (removeEntry f.sender f.cls s.rxu).table }
  else raise (frameOccurrence .noSpace f) (s.withRxu (discardEntry f.sender f.cls s.rxu))

/-- A continuation that agrees with its entry and completes the message (R115). -/
def takeLast (f : TakenFrame) (e : Entry) (s : State) : State :=
  if deliveryRoom s.rxu then
    let x := removeEntry f.sender f.cls s.rxu
    driveDlv (s.withRxu (appendDelivery
      ⟨e.sender, e.cls, e.broadcast, Config.blockBytes * e.next + f.length, e.blocks ++ [f.payload], f.cycle⟩
      { x with free := x.free - 1 }))
  else raise (frameOccurrence .noSpace f) (s.withRxu (discardEntry f.sender f.cls s.rxu))

/-- A continuation: an orphan, a contradiction, a middle segment or the last one (R112 to R115). -/
def takeContinuation (f : TakenFrame) (s : State) : State :=
  match findEntry f.sender f.cls s.rxu with
  | none => s
  | some e =>
    if e.next = f.index ∧ e.number = f.number then
      if f.last then takeLast f e s else takeMiddle f e s
    else raise (frameOccurrence .sequence f) (s.withRxu (discardEntry f.sender f.cls s.rxu))

/-- Step 1 of R109 and R111: an entry for the key of a segment 0 is discarded with SEQUENCE. -/
def replaceEntry (f : TakenFrame) (s : State) : State :=
  match findEntry f.sender f.cls s.rxu with
  | none => s
  | some _ => raise (frameOccurrence .sequence f) (s.withRxu (discardEntry f.sender f.cls s.rxu))

/-- One taken frame (R107). -/
def takeFrame (f : TakenFrame) (s : State) : State :=
  if f.index = 0 then
    if f.last then takeSingle f (replaceEntry f s) else takeFirst f (replaceEntry f s)
  else takeContinuation f s

/-! ### The boundary at the Receive Unit (R116, R124) -/

/-- The quiet counter at a boundary: raised while records wait and it is below Q; at Q the quiet flag is set (R124). DESIGN
CHOICE (log 28): a counter that stands at Q with the flag clear, as after a SETUP that lowers Q to exactly the counter, leaves
the flag clear until an append or a FETCH starts the counter again. -/
def quietBoundary (limit : Nat) (x : Rxu) : Rxu :=
  if x.delivery.isEmpty then x
  else if x.quiet < limit then
    { x with quiet := x.quiet + 1, quietFlag := x.quietFlag || (x.quiet + 1 == limit) }
  else x

/-- The entries that meet a condition are discarded, each with an AGED fault, in the table's order (R116, R118). -/
def ageOut (which : Entry → Bool) (p : Phase) (c : Cycle) (s : State) : State :=
  raiseAll ((s.rxu.table.filter which).map (agedOccurrence p c)) (s.withRxu (discardEntries which s.rxu))

/-- Every age raised by 1 (R116). -/
def raiseAges (x : Rxu) : Rxu := { x with table := x.table.map fun e => { e with age := e.age + 1 } }

/-- A cycle boundary at the Receive Unit: the quiet counter, then the aging of every entry (R116, R124). -/
def rxuBoundary (p : Phase) (c : Cycle) (s : State) : State :=
  ageOut (fun e => e.age == s.cfg.ageLimit) p c
    (driveDlv (s.withRxu (raiseAges (quietBoundary s.cfg.quietLimit s.rxu))))

/-- The notice of a peer loss: every entry of that sender is discarded with an AGED fault (R118). -/
def peerLoss (p : Phase) (c : Cycle) (s : State) (a : Addr) : State := ageOut (fun e => e.sender == a) p c s

end Sys2Proof.Machine
end

