-- ==== Sys2Proof/Machine/Peers.lean ====
section
/-! DEFINITION. The Peer Monitor: heard credit, quality, the mismatch flag, presence evaluation and change capture (07). -/

namespace Sys2Proof.Machine

/-- A record whose presence is evaluated at boundaries (R131, R133). -/
def scheduled (p : Presence) : Bool :=
  match p with
  | .unseen | .present | .fading | .absent => true
  | .self | .notScheduled => false

/-- Whether a move from one presence to another sets the presence-changed flag (R142). -/
def capturesPresence (mode : CaptureMode) (before after : Presence) : Bool :=
  before != after &&
    match mode with
    | .any => true
    | .loss => after == .absent

/-- Whether a move from one quality to another sets the quality-changed flag (R142). -/
def capturesQuality (mode : CaptureMode) (before after : Quality) : Bool :=
  before != after &&
    match mode with
    | .any => true
    | .loss => after == .poor

/-- Presence and runs after a whole cycle under TOLERANT (R137). -/
def tolerantStep (heard : Bool) (r : Peer) : Peer :=
  match r.presence, heard with
  | .unseen, true => { r with presence := .present, silentRun := 0 }
  | .unseen, false =>
    if r.silentRun + 1 = 2 then { r with presence := .absent, silentRun := 2 } else { r with silentRun := r.silentRun + 1 }
  | .present, true => { r with silentRun := 0 }
  | .present, false => { r with presence := .fading, silentRun := 1 }
  | .fading, true => { r with presence := .present, silentRun := 0 }
  | .fading, false => { r with presence := .absent, silentRun := 2 }
  | .absent, true =>
    if r.returnRun = 0 then { r with returnRun := 1, silentRun := 0 }
    else { r with presence := .present, returnRun := 0, silentRun := 0 }
  | .absent, false =>
    if r.returnRun = 0 then { r with silentRun := min 2 (r.silentRun + 1) }
    else { r with returnRun := 0, silentRun := 1 }
  | .self, _ => r
  | .notScheduled, _ => r

/-- Presence and runs after a whole cycle under STRICT (R138). -/
def strictStep (heard : Bool) (r : Peer) : Peer :=
  match r.presence, heard with
  | .unseen, true | .present, true | .fading, true | .absent, true => { r with presence := .present, silentRun := 0 }
  | .unseen, false | .present, false => { r with presence := .absent, silentRun := 1 }
  | .fading, false => { r with presence := .absent, silentRun := 2 }
  | .absent, false => { r with silentRun := min 2 (r.silentRun + 1) }
  | .self, _ => r
  | .notScheduled, _ => r

/-- One record evaluated from its heard mark, with its change captured (R136, R142). -/
def evaluate (cfg : Items) (heard : Bool) (r : Peer) : Peer :=
  let r' := match cfg.presence with
    | .tolerant => tolerantStep heard r
    | .strict => strictStep heard r
  { r' with presenceChanged := r.presenceChanged || capturesPresence cfg.presenceCapture r.presence r'.presence }

/-- The Peer Monitor after a boundary (R136): a whole cycle evaluates every record; the marks are cleared in either case. -/
def evaluateAll (cfg : Items) (whole : Bool) (x : Pmn) : Pmn where
  peers := if whole then Vector.ofFn fun a => evaluate cfg x.marks[a] x.peers[a] else x.peers
  marks := Vector.replicate 32 false

/-- The addresses whose records move into ABSENT at a boundary, in ascending order (R139). -/
def lostPeers (before after : Pmn) : List Addr :=
  (List.finRange 32).filter fun a => before.peers[a].presence != .absent && after.peers[a].presence == .absent

/-- A cycle boundary at the Peer Monitor, with its notices to the Receive Unit (R136, R139). -/
def pmnBoundary (whole : Bool) (p : Phase) (c : Cycle) (s : State) : State :=
  let x := evaluateAll s.cfg whole s.pmn
  (lostPeers s.pmn x).foldl (peerLoss p c) (s.withPmn x)

/-- A peer record changed. -/
def updatePeer (a : Addr) (f : Peer → Peer) (x : Pmn) : Pmn := { x with peers := x.peers.set a (f x.peers[a]) }

/-- Heard credit of a clean frame: the mark and the last heard cycle (R134). -/
def credit (a : Addr) (cycle : Cycle) (x : Pmn) : Pmn :=
  updatePeer a (fun r => { r with lastHeard := some cycle }) { x with marks := x.marks.set a true }

/-- The quality a pattern error count gives (R140). -/
def qualityOf (e : Nat) : Quality := if e ≤ 6 then .good else .poor

/-- The quality measure of a clean FILL or COLD frame (R140, R142). -/
def measure (cfg : Items) (a : Addr) (e : Nat) (x : Pmn) : Pmn :=
  updatePeer a (fun r =>
    { r with
      lastErrors := some e
      quality := qualityOf e
      qualityChanged := r.qualityChanged || capturesQuality cfg.qualityCapture r.quality (qualityOf e) }) x

/-- A DIGEST or agreement notice at the mismatch flag (R141). -/
def noteMismatch (a : Addr) (mismatch : Bool) (x : Pmn) : Pmn := updatePeer a (fun r => { r with mismatch := mismatch }) x

end Sys2Proof.Machine
end

