-- ==== Sys2Proof/Machine/Transmit.lean ====
section
/-! DEFINITION. The transmit side shared by the commands: segments, the start of a transmission, selection at an own-phase
start, the COLD frame, and the transmit outcomes at the Transmit Scheduler (05; R6, R15, R22, R51, R54). -/

namespace Sys2Proof.Machine

/-! ### Segments and frames -/

/-- The payload cut into pool blocks of 64 bytes, `n` of them (R69). -/
def cutBlocks : Nat → List Byte → List (List Byte)
  | 0, _ => []
  | n + 1, payload => payload.take Config.blockBytes :: cutBlocks n (payload.drop Config.blockBytes)

/-- Whether a segment index is that of the message's last segment. -/
def isLast (m : Message) (index : Nat) : Bool := index + 1 == segmentCount m.length

/-- The segment of a STARTED message with a given index, read from its pool block of that index (R97). -/
def segmentOf (m : Message) (index : Nat) : Segment where
  destination := m.destination
  cls := m.cls
  number := m.number.getD 0
  index := index
  last := isLast m index
  payload := m.blocks.getD index []

/-- The insertions a frame of a kind takes: CRC in any frame, PATTERN in FILL and COLD (R22). -/
def insertionsFor (kind : FrameKind) (x : Fru) : Insertions where
  pattern := x.testPattern && kind != .data
  crc := x.testCrc

/-- The pending insertions after a frame of a kind has been built (R22). -/
def insertionsUsed (kind : FrameKind) (x : Fru) : Fru :=
  { x with testPattern := x.testPattern && kind == .data, testCrc := false }

/-- The intended bytes of the FILL frame of this moment (R15). -/
def fillBytes (s : State) : List Byte :=
  shortFrame .fill s.cfg.ownAddress s.ctr.p s.ctr.c s.ctr.digest (insertionsFor .fill s.fru)

/-- The intended bytes of the COLD frame of this moment: the lowest owned phase and cycle 0 (R15, R51). -/
def coldBytes (s : State) : List Byte :=
  shortFrame .cold s.cfg.ownAddress (lowestOwned s) 0 s.ctr.digest (insertionsFor .cold s.fru)

/-- The intended bytes of a DATA frame of this moment (R15, R97). -/
def dataBytes (g : Segment) (s : State) : List Byte :=
  dataFrame s.cfg.ownAddress s.ctr.p s.ctr.c s.ctr.digest g (insertionsFor .data s.fru)

/-- The own frame that a transmission puts on the line (R11). A frame already on the line becomes an own frame. -/
def ownFrame (f : Option Gather) : Gather :=
  match f with
  | some g => { g with own := true }
  | none => { chars := [], own := true, begun := false, alignedAtStart := false, lateBad := false }

/-- The Line Interface starts a frame: the driver goes ON, and the Frame Unit has built it with its insertions (R6, R15). -/
def startTransmission (kind : FrameKind) (bytes : List Byte) (s : State) : State :=
  (s.withLif { s.lif with tx := some ⟨bytes, 0, false⟩ }).withFru
    { insertionsUsed kind s.fru with frame := some (ownFrame s.fru.frame) }

/-! ### Selection (R87 to R96) -/

/-- The classes a floor admits, highest priority first (R26, R88). -/
def admitted (floor : Cls) : List Cls := (List.finRange 4).filter fun k => k ≤ floor

/-- The candidate: the head of the highest-priority admitted queue that is not empty (R88). -/
def candidate (floor : Cls) (t : Txs) : Option Message := (admitted floor).findSome? fun k => t.queues[k].head?

/-- The unreachable check of a candidate (R89). -/
def unreachable (s : State) (m : Message) : Bool :=
  s.cfg.unreachable == .discard && m.state == .queued && decide (m.destination.toNat < 32) &&
    s.pmn.peers[Fin.ofNat 32 m.destination.toNat].presence == .absent

/-- Start a message: it takes its class's message number, the counter advances, and it becomes the current context (R93). -/
def startMessage (m : Message) (t : Txs) : Txs :=
  let number := t.numbers[m.cls]
  { updateMessage m.tag (fun x => { x with state := .started number 0 }) t with
    numbers := t.numbers.set m.cls (number + 1)
    current := some m.tag }

/-- Settle the contexts for a candidate (R92): keep, pop, start, or push and start. -/
def settleContexts (m : Message) (t : Txs) : Txs :=
  match t.current, t.stack with
  | some tag, stack => if tag = m.tag then t else startMessage m { t with stack := tag :: stack }
  | none, top :: below => if top = m.tag then { t with current := some top, stack := below } else startMessage m t
  | none, [] => startMessage m t

/-- What a selection asks the Line Interface for. -/
inductive FrameRequest where
  | fill
  | data (tag : Tag) (index : Nat) (last : Bool)
  deriving DecidableEq, Repr

/-- The request for a settled candidate: its next segment, or FILL under the last-segment hold (R92, R95). -/
def requestFor (m : Message) (t : Txs) : FrameRequest :=
  if isLast m m.sent && completionsFull t then .fill else .data m.tag m.sent (isLast m m.sent)

/-- One selection (R87 to R95). An unreachable candidate is discarded while there is a completion place, and the selection
begins again; each discard takes a record from a queue, so `fuel` records are enough. -/
def select : Nat → Cls → State → State × FrameRequest
  | 0, _, s => (s, .fill)
  | fuel + 1, floor, s =>
    match candidate floor s.txs with
    | none => (s, .fill)
    | some m =>
      if unreachable s m then
        if completionsFull s.txs then (s, .fill)
        else select fuel floor (driveSub (s.withTxs (depart m .unreachable s.txs)))
      else
        let s' := s.withTxs (settleContexts m s.txs)
        (s', requestFor m s'.txs)

/-- The frame in flight that a request is recorded as (R97). -/
def FrameRequest.inFlight : FrameRequest → InFlight
  | .fill => .fill
  | .data tag index last => .data tag index last

/-- The Line Interface answers a request (R6): with the receiver in IDLE it starts the frame, otherwise NOT SENT is reported
and no frame is in flight (R98, R100). -/
def sendRequest (r : FrameRequest) (s : State) : State :=
  if s.lif.receiver = .idle then
    let s' := s.withTxs { s.txs with inFlight := some r.inFlight }
    match r with
    | .fill => startTransmission .fill (fillBytes s) s'
    | .data tag index _ =>
      match findMessage tag s.txs with
      | some m => startTransmission .data (dataBytes (segmentOf m index) s) s'
      | none => s
  else s

/-- An own-phase start at the Transmit Scheduler: selection, then one request (R87). -/
def ownPhaseStart (floor : Cls) (s : State) : State :=
  let r := select ((messages s.txs).length + 1) floor s
  sendRequest r.2 r.1

/-- The entry of the current phase, when it is an own phase (R26). -/
def ownPhase (s : State) : Option PhaseEntry :=
  match s.ctr.table[s.ctr.p.val]? with
  | some e => if e.owner = s.cfg.ownAddress then some e else none
  | none => none

/-- A phase start (R28): the skip timer is started, and an own phase in ACTIVE with HOLD clear is offered to the Transmit
Scheduler. -/
def phaseStart (s : State) : State :=
  let s' := s.withCtr { s.ctr with skip := .running Config.skipTime }
  match ownPhase s' with
  | some e => if s.stc.station = .active && !s.ctr.hold then ownPhaseStart e.floor s' else s'
  | none => s'

/-! ### The COLD frame (R51, R54) -/

/-- A frame whose first start bit is confirmed is being gathered. -/
def gathering (s : State) : Bool :=
  match s.fru.frame with
  | some f => f.begun
  | none => false

/-- The Station Controller asks for the COLD frame (R51). NOT SENT leaves the station in COLD while a frame is being gathered,
and returns it to LISTEN otherwise (R54). -/
def requestCold (s : State) : State :=
  if s.lif.receiver = .idle then startTransmission .cold (coldBytes s) s
  else if gathering s then s
  else enterListen s

/-! ### Transmit outcomes at the Transmit Scheduler (R98 to R101) -/

/-- ECHO CLEAN of the frame in flight (R99): a segment that is not the last raises segments sent; a last segment ends its
message as SENT, its reserved place becomes the completion record, and the current context becomes empty. -/
def txsEchoClean (t : Txs) : Txs :=
  let t' := { t with inFlight := none }
  match t.inFlight with
  | some (.data tag _ last) =>
    match findMessage tag t with
    | some m =>
      if last then { depart m .sent t' with current := none }
      else
        updateMessage tag (fun x =>
          match x.state with
          | .started n k => { x with state := .started n (k + 1) }
          | .queued => x) t'
    | none => t'
  | _ => t'

/-- ECHO FAILURE or CUT of the frame in flight: no progress, and any reserved place is released (R100, R101). -/
def txsDropFlight (t : Txs) : Txs := { t with inFlight := none }

end Sys2Proof.Machine
end

