-- ==== Sys2Proof/Machine/Phases.lean ====
section
/-! DEFINITION. The end of a phase and of a frame: alignment, realignment, the advance, the cycle boundary in the blocks, and
the judging of a received frame (02; R21, R157). -/

namespace Sys2Proof.Machine

/-! ### Work handed on at a phase end -/

/-- What one frame end hands on, beside the frame end itself (R21): the frame's own fault (the Frame Unit's or a SLIP), the
taken DATA frame, the raise of the line error counter, and the heard credit. A skip expiry and the frame end of an own frame
hand on nothing. -/
structure Work where
  fault : Option Occurrence
  taken : Option TakenFrame
  errors : Nat
  heard : Option (Addr × Cycle)
  deriving DecidableEq, Repr

/-- No work: a skip expiry or the frame end of an own frame. -/
def Work.nothing : Work := ⟨none, none, 0, none⟩

/-- The events of one phase end whose order the manual leaves open (log 6). -/
inductive Task where
  | fault | frame | aging | presence
  deriving DecidableEq, Repr

/-- The rank an order gives a task. -/
def taskRank (o : Config.FrameEndOrder) : Task → Nat
  | .fault => o.fault.val
  | .frame => o.frame.val
  | .aging => o.aging.val
  | .presence => o.presence.val

/-- A task put into its place by rank. -/
def insertTask (o : Config.FrameEndOrder) (t : Task) : List Task → List Task
  | [] => [t]
  | u :: us => if taskRank o t ≤ taskRank o u then t :: u :: us else u :: insertTask o t us

/-- Tasks in ascending rank, the earlier listed first where ranks are equal. -/
def orderTasks (o : Config.FrameEndOrder) : List Task → List Task
  | [] => []
  | t :: ts => insertTask o t (orderTasks o ts)

/-- The tasks before the phase start: the frame's own work, and at a boundary the aging and, unless the selection is taken
first, the presence evaluation (R91). DESIGN CHOICE (log 30): where the selection is taken first, the presence evaluation and
its loss notices come after the frame's own fault, the taken frame and the aging, and the rank of the evaluation is not used,
though R118, R139 and R150 leave those orders open there too. -/
def tasksBefore (o : Config.FrameEndOrder) (boundary : Bool) : List Task :=
  orderTasks o ([.fault, .frame] ++
    (if boundary then .aging :: (if o.selectFirst then [] else [.presence]) else []))

/-- One task, with the whole-cycle flag of the ended cycle and p and c after the advance. -/
def runTask (w : Work) (whole : Bool) (p : Phase) (c : Cycle) (t : Task) (s : State) : State :=
  match t with
  | .fault => raiseAll w.fault.toList s
  | .frame =>
    match w.taken with
    | some f => takeFrame f s
    | none => s
  | .aging => rxuBoundary p c s
  | .presence => pmnBoundary whole p c s

/-- Tasks in order. -/
def runTasks (w : Work) (whole : Bool) (p : Phase) (c : Cycle) (ts : List Task) (s : State) : State :=
  ts.foldl (fun s t => runTask w whole p c t s) s

/-- The line errors of a frame, and at a boundary the period counter, in the order taken (R161). -/
def countAtEnd (o : Config.FrameEndOrder) (boundary : Bool) (errors : Nat) (s : State) : State :=
  if boundary then
    if o.countFirst then s.withFlt (periodBoundary s.cfg (countErrors errors s.flt))
    else s.withFlt (countErrors errors (periodBoundary s.cfg s.flt))
  else s.withFlt (countErrors errors s.flt)

/-- The heard credit of a frame, when there is one (R134). -/
def creditHeard (w : Work) (s : State) : State :=
  match w.heard with
  | some (a, cycle) => s.withPmn (credit a cycle s.pmn)
  | none => s

/-! ### The advance (R31 to R33) -/

/-- Whether the end of the current phase is a cycle boundary (R31). -/
def endsCycle (s : State) : Bool := s.ctr.aligned && s.ctr.p.val + 1 == tableLength s

/-- The phase after the advance. -/
def nextPhase (s : State) : Phase := if endsCycle s then 0 else Fin.ofNat 64 (s.ctr.p.val + 1)

/-- The cycle number after the advance. -/
def nextCycle (s : State) : Cycle := if endsCycle s then s.ctr.c + 1 else s.ctr.c

/-- The Cycle Tracker after the advance (R31); at a boundary it then sets the whole-cycle flag and clears HOLD (R32). -/
def advanced (s : State) : Ctr :=
  if s.ctr.aligned then
    { s.ctr with p := nextPhase s, c := nextCycle s, whole := s.ctr.whole || endsCycle s,
                 hold := s.ctr.hold && !endsCycle s }
  else s.ctr

/-- A phase end with its work, in a given order of the blocks: the advance, the boundary in the blocks, and the start of the
next phase while ALIGNED (R28, R31, R32). DESIGN CHOICE (log 30): the frame's own fault, its handling and the aging always come
before the phase start, and a presence evaluation that the selection precedes, with its loss notices, always after it.
DESIGN CHOICE (log 29): each AGED of a boundary is recorded within the command that reports the boundary, where R150 lets an ECHO
around the same moment come in either order. -/
def phaseEndWith (o : Config.FrameEndOrder) (w : Work) (s : State) : State :=
  let boundary := endsCycle s
  let whole := s.ctr.whole
  let p := nextPhase s
  let c := nextCycle s
  let s1 := countAtEnd o boundary w.errors (s.withCtr (advanced s))
  let s2 := if o.creditFirst then creditHeard w s1 else s1
  let s3 := runTasks w whole p c (tasksBefore o boundary) s2
  let s4 := if s.ctr.aligned then phaseStart s3 else s3
  let s5 := if boundary && o.selectFirst then pmnBoundary whole p c s4 else s4
  if o.creditFirst then s5 else creditHeard w s5

/-- Whether the order of the blocks can matter: at a boundary, or where one frame leads to a fault of its own and is taken. -/
def orderMatters (w : Work) (s : State) : Bool := endsCycle s || (w.fault.isSome && w.taken.isSome)

/-- The order of this phase end: a fresh free value where it can matter (log 6). -/
def orderOf (w : Work) (s : State) : Config.FrameEndOrder :=
  if orderMatters w s then Config.frameEndOrder s.freeCount else .plain

/-- One free value used, where the order could matter. -/
def useOrder (w : Work) (s : State) : State :=
  if orderMatters w s then s.withFreeCount (s.freeCount + 1) else s

/-- A phase end with its work. -/
def phaseEnd (w : Work) (s : State) : State := phaseEndWith (orderOf w s) w (useOrder w s)

/-! ### Skip expiry (R29) -/

/-- An own transmission of which no start bit was heard leaves no frame once 1 ct of idle line has passed (R5, R11; log 18). -/
def dropUnheard (s : State) : State := s.withFru { s.fru with frame := s.fru.frame.filter Gather.begun }

/-- The skip expiry itself, which shows that a ct has passed with no start bit. -/
def skipExpire (s : State) : State := phaseEnd .nothing (dropUnheard s)

/-! ### Frame ends (R21, R34, R35, R38) -/

/-- The fault kind of an outcome that is a fault. -/
def FrameOutcome.kind : FrameOutcome → Option FaultKind
  | .clean => none
  | .framing => some .framing
  | .format => some .format
  | .crc => some .crc
  | .digest => some .digest
  | .foreign => some .foreign

/-- The raise of the line error counter for a frame (R157). -/
def errorsOf (selection : CounterSelection) (outcome : FrameOutcome) (e : Option Nat) : Nat :=
  match selection, outcome with
  | .framing, .framing => 1
  | .crc, .crc => 1
  | .framingCrc, .framing => 1
  | .framingCrc, .crc => 1
  | .pattern, _ => e.getD 0
  | _, _ => 0

/-- Whether a clean frame acquires alignment (R34). -/
def acquires (s : State) : Bool :=
  !s.ctr.aligned && (s.stc.station == .listen || s.stc.station == .cold || s.stc.station == .silent)

/-- Whether a clean frame realigns (R38). -/
def realigns (bytes : List Byte) (s : State) : Bool :=
  s.ctr.aligned && (phaseOf bytes != s.ctr.p || cycleOf bytes != s.ctr.c)

/-- The Cycle Tracker set to a phase and cycle by acquisition or realignment: the whole-cycle flag is cleared (R33). -/
def alignTo (p : Phase) (c : Cycle) (x : Ctr) : Ctr := { x with aligned := true, p := p, c := c, whole := false }

/-- A clean frame at the Cycle Tracker and the Station Controller: it ends HOLD, acquires alignment or realigns, and on
acquisition moves LISTEN or COLD to ACTIVE (R34, R38, R43). -/
def trackClean (bytes : List Byte) (s : State) : State :=
  if acquires s then
    let s' := s.withCtr { alignTo (phaseOf bytes) (cycleOf bytes) s.ctr with hold := false }
    if s.stc.station = .silent then s' else enterActive s'
  else if realigns bytes s then s.withCtr { alignTo (phaseOf bytes) (cycleOf bytes) s.ctr with hold := false }
  else s.withCtr { s.ctr with hold := false }

/-- A clean frame at the Peer Monitor, heard credit apart: the agreement notice, and for FILL and COLD the quality measure
(R140, R141). -/
def notePeer (bytes : List Byte) (e : Option Nat) (s : State) : State :=
  let x := noteMismatch (senderOf bytes) false s.pmn
  match e with
  | some n => s.withPmn (measure s.cfg (senderOf bytes) n x)
  | none => s.withPmn x

/-- Whether the Receive Unit takes a clean frame (R106): it is DATA, began while ALIGNED, ends in ACTIVE or SILENT, is for
the own address or FFh, and is not the frame that acquires alignment. -/
def takes (f : Gather) (s : State) : Bool :=
  kindOf f.bytes == some .data && f.alignedAtStart && (s.stc.station == .active || s.stc.station == .silent) &&
    ((destinationOf f.bytes).toNat == s.cfg.ownAddress.val || destinationOf f.bytes == 0xFF) && !acquires s

/-- The taken frame, with its payload from the segment buffer (R105) and a given p and c. -/
def takenFrame (f : Gather) (s : State) (p : Phase) (c : Cycle) : TakenFrame where
  sender := senderOf f.bytes
  cls := classOf f.bytes
  number := numberOf f.bytes
  index := indexOf f.bytes
  last := lastOf f.bytes
  broadcast := destinationOf f.bytes == 0xFF
  length := lengthOf f.bytes
  payload := s.rxu.segBuf.take (lengthOf f.bytes)
  cycle := cycleOf f.bytes
  bytes := captured f.bytes
  atPhase := p
  atCycle := c

/-- The SLIP occurrence of a realigning frame, with p and c before the correction (R38, R152). -/
def slipOccurrence (bytes : List Byte) (s : State) : Occurrence :=
  ⟨.slip, some (senderOf bytes), none, s.ctr.p, s.ctr.c, captured bytes⟩

/-- The work of a clean frame. The taken frame's p and c are those before a realignment, or the corrected ones when
`corrected` (R152; log 11). -/
def cleanWork (f : Gather) (e : Option Nat) (corrected : Bool) (s : State) : Work where
  fault := if realigns f.bytes s then some (slipOccurrence f.bytes s) else none
  taken :=
    if takes f s then
      some (if corrected then takenFrame f s (phaseOf f.bytes) (cycleOf f.bytes) else takenFrame f s s.ctr.p s.ctr.c)
    else none
  errors := errorsOf s.cfg.selection .clean e
  heard := some (senderOf f.bytes, cycleOf f.bytes)

/-- The frame leaves the Frame Unit and the segment buffer at its frame end (R21, R105). -/
def dropFrame (s : State) : State :=
  (s.withFru { s.fru with frame := none }).withRxu { s.rxu with segBuf := [] }

/-- Whether the taken frame's p and c are read after the correction inside a cycle: where the SLIP is taken before the frame
(log 11). -/
def readsCorrected (o : Config.FrameEndOrder) : Bool := decide (o.fault ≤ o.frame)

/-- The frame end of a clean frame from another station. A realigning frame that is taken records the corrected p and c where
its end is a cycle boundary, which are phase L - 1 and the cycle just ended (R152), and elsewhere by the free order. -/
def cleanFrameEnd (f : Gather) (s : State) : State :=
  let e := patternErrors f
  let tracked := notePeer f.bytes e (trackClean f.bytes (dropFrame s))
  let o := orderOf (cleanWork f e false s) tracked
  let corrected := realigns f.bytes s && (endsCycle tracked || readsCorrected o)
  phaseEndWith o (cleanWork f e corrected s) (useOrder (cleanWork f e false s) tracked)

/-- The work of a frame with a fault (R21, R152, R157). -/
def faultWork (f : Gather) (outcome : FrameOutcome) (kind : FaultKind) (s : State) : Work where
  fault := some ⟨kind, faultSender f, none, s.ctr.p, s.ctr.c, captured f.bytes⟩
  taken := none
  errors := errorsOf s.cfg.selection outcome (patternErrors f)
  heard := none

/-- The notices of a frame with a fault to the Peer Monitor: DIGEST sets the mismatch flag, FOREIGN clears it (R141). -/
def noteFault (bytes : List Byte) (outcome : FrameOutcome) (s : State) : State :=
  match outcome with
  | .digest => s.withPmn (noteMismatch (senderOf bytes) true s.pmn)
  | .foreign => s.withPmn (noteMismatch (senderOf bytes) false s.pmn)
  | _ => s

/-- The frame end of a frame with a fault. A COLD station that waited for the frame returns to LISTEN (R54). DESIGN CHOICE
(log 29): its fault is recorded within its own frame end, so before any fault of a later frame, where R150 lets a FOREIGN and the
SLIP of a later frame come in either order. -/
def faultFrameEnd (f : Gather) (outcome : FrameOutcome) (kind : FaultKind) (s : State) : State :=
  let s' := phaseEnd (faultWork f outcome kind s) (noteFault f.bytes outcome (dropFrame s))
  if s'.stc.station = .cold then enterListen s' else s'

/-- The frame end of an own frame (R11, R35): a pending COLD alignment is made; the phase ends while ALIGNED. -/
def ownFrameEnd (s : State) : State :=
  if s.ctr.coldAlignPending then
    phaseEnd .nothing (enterActive (s.withCtr (alignTo (lowestOwned s) 0 s.ctr)))
  else if s.ctr.aligned then phaseEnd .nothing s
  else s

/-- The end of a frame (R5, R21). An own frame of which no start bit was heard leaves the line without a report: the receiver
heard no frame, and its phase ends by skip expiry (log 18). -/
def endFrame (s : State) : State :=
  match s.fru.frame with
  | none => s
  | some f =>
    if !f.begun then s.withFru { s.fru with frame := none }
    else if f.own then ownFrameEnd (dropFrame s)
    else
      let outcome := checkFrame s.ctr.table s.ctr.digest f
      match outcome.kind with
      | none => cleanFrameEnd f s
      | some kind => faultFrameEnd f outcome kind s

end Sys2Proof.Machine
end

