-- ==== Sys2Proof/Machine/Boundary.lean ====
section
/-! DEFINITION. The meanings of the three rows that are parts of a cycle boundary: ENTRY_AGED, QUIET_LIMIT_REACHED and
PERIODIC_TRANSFER (R116, R124, R159). FRAME_END and SKIP_EXPIRY make these parts themselves at every boundary they report;
a row commanded by itself is the boundary reaching that one part (log 12). -/

namespace Sys2Proof.Machine

/-- An entry of a key whose age the boundary raises to the age limit (R116). -/
def agesOut (s : State) (sender : Addr) (cls : Cls) (e : Entry) : Bool :=
  e.hasKey sender cls && e.age + 1 == s.cfg.ageLimit

/-- ENTRY_AGED (R116): the entry of the key reaches the age limit at the boundary that ends the current cycle, and is discarded
with an AGED fault of phase 0 and the new cycle number (R152). -/
def execEntryAged (sender : Addr) (cls : Cls) (s : State) : Host.Outcome State Fault Refusal :=
  if s.ctr.aligned then .next (ageOut (agesOut s sender cls) 0 (s.ctr.c + 1) s) else .next s

/-- QUIET_LIMIT_REACHED (R124): with records waiting the quiet counter reaches Q, and the quiet flag is set. -/
def execQuietLimitReached (s : State) : Host.Outcome State Fault Refusal :=
  if s.ctr.aligned ∧ s.rxu.quiet + 1 = s.cfg.quietLimit then
    .next (driveDlv (s.withRxu (quietBoundary s.cfg.quietLimit s.rxu)))
  else .next s

/-- PERIODIC_TRANSFER (R159): the report period counter reaches N, and the counter moves into the snapshot. -/
def execPeriodicTransfer (s : State) : Host.Outcome State Fault Refusal :=
  if s.ctr.aligned ∧ s.cfg.reportMode = .periodic ∧ s.flt.period + 1 = s.cfg.reportPeriod then
    .next (s.withFlt (periodBoundary s.cfg s.flt))
  else .next s

end Sys2Proof.Machine
end

