-- ==== Sys2Proof/Machine/Line.lean ====
section
/-! DEFINITION. The meanings of the line's events: the receiver, frame ends, the two line timers, and the transmit outcomes
(R3 to R11, R29, R41, R53, R57, R59). -/

namespace Sys2Proof.Machine

/-! ### The receiver (R3 to R5) -/

/-- RECEIVER_SETTLED (R3): from SETTLING to IDLE. -/
def execReceiverSettled (s : State) : Host.Outcome State Fault Refusal :=
  if s.lif.receiver = .settling then .next (s.withLif { s.lif with receiver := .idle }) else .next s

/-- FALLING_EDGE (R4): from IDLE to CHARACTER, the start bit not yet confirmed. -/
def execFallingEdge (s : State) : Host.Outcome State Fault Refusal :=
  if s.lif.receiver = .idle then .next (s.withLif { s.lif with receiver := .character false }) else .next s

/-- BREAK_ENDED (R4): from BREAK to IDLE. -/
def execBreakEnded (s : State) : Host.Outcome State Fault Refusal :=
  if s.lif.receiver = .brk then .next (s.withLif { s.lif with receiver := .idle }) else .next s

/-- A start bit seen, at the Cycle Tracker: the skip timer is stopped, and a running cold-start wait restarts at full length
(R29, R40). -/
def lineActivity (s : State) : State :=
  s.withCtr { s.ctr with skip := .stopped,
                         coldWait := s.ctr.coldWait.map fun _ => Config.coldStartWait s.cfg.ownAddress }

/-- A new frame on the line, at its first confirmed start bit (R5, R11, R36): an own frame while the driver is ON. -/
def newFrame (s : State) : Gather :=
  { chars := [], own := s.lif.tx.isSome, begun := true, alignedAtStart := s.ctr.aligned, lateBad := false }

/-- The frame on the line after a confirmed start bit (R5, R11, R36): the first one begins a frame and notes whether the
Cycle Tracker is ALIGNED. -/
def beginFrame (s : State) : Gather :=
  match s.fru.frame with
  | none => newFrame s
  | some f => if f.begun then f else { f with begun := true, alignedAtStart := s.ctr.aligned }

/-- The driver has gone OFF after an own transmission of which no start bit was heard, and no timer has told whether its 1 ct of
idle line has passed (R5, R11, R29, R39): a start bit confirmed now may still belong to that own frame, or begin a new one
(log 31). Where the frame end waits for this very sample, the start bit goes on with the frame (R5). -/
def unheardOwn (s : State) : Bool :=
  !s.ctr.aligned && s.lif.tx.isNone && !s.lif.frameEndDue &&
    match s.fru.frame with
    | some f => f.own && !f.begun
    | none => false

/-- The frame on the line after a confirmed start bit, with the free value of log 31. -/
def startFrame (ended : Bool) (s : State) : Gather := if unheardOwn s && ended then newFrame s else beginFrame s

/-- One free value used, where an own frame that was not heard may be over. -/
def useUnheard (s : State) : State := if unheardOwn s then s.withFreeCount (s.freeCount + 1) else s

/-- START_BIT_SEEN (R3, R4): in SETTLING line activity alone; in CHARACTER the start bit is confirmed, and a frame begins or
goes on. Whether an own frame that was not heard goes on is a free value while UNALIGNED (log 31). -/
def execStartBitSeen (s : State) : Host.Outcome State Fault Refusal :=
  match s.lif.receiver with
  | .settling => .next (lineActivity s)
  | .character false =>
    .next (lineActivity (((useUnheard s).withLif { s.lif with receiver := .character true, frameEndDue := false }).withFru
      { s.fru with frame := some (startFrame (Config.unheardFrameOver s.freeCount) s) }))
  | _ => .next s

/-- The echo check of a completed character (R8): it matches when its stop bit was good and its data bits are the intended
byte. -/
def echoCheck (ch : RxChar) (t : Transmission) : Transmission :=
  match t.bytes[t.matched]? with
  | none => t
  | some b => if ch.good ∧ ch.data = b ∧ t.mismatch = false then { t with matched := t.matched + 1 } else { t with mismatch := true }

/-- A character at the Frame Unit (R11, R19): added to a frame of another station, counted up to 300; past them only a
framing error is noted. -/
def gatherChar (ch : RxChar) (f : Gather) : Gather :=
  if f.own then f
  else if f.chars.length < Config.characterLimit then { f with chars := f.chars ++ [ch] }
  else { f with lateBad := f.lateBad || !ch.good }

/-- The segment buffer after a character of the frame being gathered (R105): the first payload byte starts it again. -/
def bufferChar (ch : RxChar) (f : Gather) (buf : List Byte) : List Byte :=
  if !f.own && expectsPayload f.bytes then bufferPayload ch.data (if f.chars.length = 8 then [] else buf) else buf

/-- A completed character at the blocks that use it. -/
def takeChar (ch : RxChar) (s : State) : State :=
  let s1 := s.withLif { s.lif with receiver := if ch.good then .idle else .brk, tx := s.lif.tx.map (echoCheck ch) }
  match s.fru.frame with
  | none => s1
  | some f =>
    (s1.withFru { s.fru with frame := some (gatherChar ch f) }).withRxu { s.rxu with segBuf := bufferChar ch f s.rxu.segBuf }

/-- CHARACTER_RECEIVED (R4, R8, R19): the receiver returns to IDLE, or enters BREAK after a framing error. -/
def execCharacterReceived (data : Byte) (stopBit : Bool) (s : State) : Host.Outcome State Fault Refusal :=
  if s.lif.receiver = .character true then .next (takeChar ⟨data, stopBit⟩ s) else .next s

/-- FRAME_END (R5): with an edge not yet confirmed the frame end waits for its middle sample; otherwise the frame ends. Own
frames end after their transmit outcome (R103). -/
def execFrameEnd (s : State) : Host.Outcome State Fault Refusal :=
  if s.fru.frame.isSome ∧ s.lif.tx = none then
    match s.lif.receiver with
    | .idle | .brk => .next (endFrame s)
    | .character false => .next (s.withLif { s.lif with frameEndDue := true })
    | _ => .next s
  else .next s

/-- A skip expiry that waits for the middle sample of an edge occurs (R29). -/
def dueSkip (s : State) : State := if s.ctr.skip = .awaitingSample then skipExpire s else s

/-- What waits for the middle sample of an edge (R5, R29): a frame end, a skip expiry, or nothing. Neither comes while the
driver is ON (R103). -/
def afterSample (s : State) : State :=
  if s.lif.tx.isSome then s
  else if s.lif.frameEndDue then dueSkip (endFrame (s.withLif { s.lif with frameEndDue := false }))
  else dueSkip s

/-- FALSE_START (R4, R5, R29): the receiver returns to IDLE; a frame end or a skip expiry that waited for this sample
occurs now. -/
def execFalseStart (s : State) : Host.Outcome State Fault Refusal :=
  if s.lif.receiver = .character false then .next (afterSample (s.withLif { s.lif with receiver := .idle })) else .next s

/-! ### The line timers (R29, R41) -/

/-- Whether the skip timer runs. -/
def SkipTimer.isRunning : SkipTimer → Bool
  | .running _ => true
  | .stopped | .awaitingSample => false

/-- SKIP_EXPIRY (R29): with an edge not yet confirmed the decision waits for its middle sample; otherwise the phase ends. -/
def execSkipExpiry (s : State) : Host.Outcome State Fault Refusal :=
  if s.ctr.aligned ∧ s.ctr.skip.isRunning ∧ s.lif.tx = none then
    if s.lif.receiver = .character false then .next (s.withCtr { s.ctr with skip := .awaitingSample })
    else .next (skipExpire s)
  else .next s

/-- COLD_START_WAIT_EXPIRY (R41, R51): the wait stops, the station enters COLD and asks for its COLD frame. The wait has run for
48 ct or more with no start bit seen (R39, R40), so an own frame that was not heard is over (R5, R11). -/
def execColdStartWaitExpiry (s : State) : Host.Outcome State Fault Refusal :=
  if s.ctr.coldWait.isSome ∧ s.stc.station = .listen then
    .next (requestCold (dropUnheard ((s.withCtr { s.ctr with coldWait := none }).withStc { s.stc with station := .cold })))
  else .next s

/-! ### Transmit outcomes (R8 to R10, R52, R53, R57, R59) -/

/-- Every character of the frame has matched its echo. -/
def Transmission.clean (t : Transmission) : Bool := !t.mismatch && decide (t.bytes.length ≤ t.matched)

/-- The driver goes OFF. -/
def driverOff (s : State) : State := s.withLif { s.lif with tx := none }

/-- ECHO CLEAN at the blocks (R10, R35, R99): in ACTIVE the echo failure count becomes 0 and the segment counts as sent; in
COLD an alignment is pending. -/
def reportClean (s : State) : State :=
  match s.stc.station with
  | .active => driveSub ((s.withLif { s.lif with echoFailures := 0 }).withTxs (txsEchoClean s.txs))
  | .cold => s.withCtr { s.ctr with coldAlignPending := true }
  | .config | .listen | .silent => s

/-- ECHO_CLEAN (R8): the driver goes OFF; a change of state that waits for the cut then takes effect (R59). -/
def execEchoClean (s : State) : Host.Outcome State Fault Refusal :=
  match s.lif.tx with
  | some t => if t.clean then .next (finishExit (reportClean (driverOff s))) else .next s
  | none => .next s

/-- ECHO FAILURE at the echo failure count, HOLD, the Transmit Scheduler and the Station Controller, by station state (R10,
R42, R53, R57, R100). -/
def reportFailure (s : State) : State :=
  match s.stc.station with
  | .active =>
    let s' := s.withTxs (txsDropFlight s.txs)
    if 3 ≤ s.lif.echoFailures then enterSilent (s'.withLif { s'.lif with echoFailures := 0 })
    else (s'.withLif { s'.lif with echoFailures := s'.lif.echoFailures + 1 }).withCtr { s'.ctr with hold := true }
  | .cold =>
    if 7 ≤ s.stc.coldAttempts then enterSilent (s.withStc { s.stc with coldAttempts := 0 })
    else enterListen (s.withStc { s.stc with coldAttempts := s.stc.coldAttempts + 1 })
  | .config | .listen | .silent => s

/-- The ECHO occurrence: the own address, p and c at the failure, and the first bytes as intended (R8, R152, R153). -/
def echoOccurrence (t : Transmission) (s : State) : Occurrence :=
  ⟨.echo, some s.cfg.ownAddress, none, s.ctr.p, s.ctr.c, captured t.bytes⟩

/-- An echo failure with its ECHO fault, in one of the two orders of R53 and R57. DESIGN CHOICE (log 27): on a fourth failure
in a row whose STOPPING report is taken first, the failure finds the station out of ACTIVE and leaves the echo failure count at
3, where R57 may also be read to have set it to 0. -/
def echoFailureWith (stoppingFirst : Bool) (t : Transmission) (s : State) : State :=
  if stoppingFirst then reportFailure (raise (echoOccurrence t s) (driverOff s))
  else raise (echoOccurrence t s) (reportFailure (driverOff s))

/-- Whether the two orders can differ: ECHO is unmasked and STOPPING. -/
def echoStops (s : State) : Bool := !hasKind s.cfg.masks .echo && hasKind s.cfg.severities .echo

/-- ECHO_FAILURE (R8): the driver goes OFF and the frame is abandoned; a change of state that waits for the cut then takes
effect (R59). Where ECHO is STOPPING the order of the two reports is a free value (log 7). DESIGN CHOICE (log 26): with a LEAVE
waiting, the STOPPING report is taken before the entry to CONFIG, so the station passes through SILENT and STATION ends pending,
where R48 and R59 also let the report find the station in CONFIG. DESIGN CHOICE (log 29): the ECHO is recorded within this
command, so before or after every AGED of a boundary as the commands come, where R150 lets an ECHO and an AGED around the same
moment come in either order. -/
def execEchoFailure (s : State) : Host.Outcome State Fault Refusal :=
  match s.lif.tx with
  | some t =>
    if t.clean then .next s
    else if echoStops s then
      .next (finishExit (echoFailureWith (Config.stoppingReportFirst s.freeCount) t (s.withFreeCount (s.freeCount + 1))))
    else .next (finishExit (echoFailureWith false t s))
  | none => .next s

/-- A change of state waits for the cut (R59, R63). -/
def cutAwaited (s : State) : Bool := s.stc.pendingExit.isSome || s.stc.softReset == .waiting

/-- CUT (R7, R59, R101): the driver goes OFF, the segment does not count, and the waiting change of state takes effect. -/
def execCut (s : State) : Host.Outcome State Fault Refusal :=
  if s.lif.tx.isSome ∧ cutAwaited s then .next (finishExit ((driverOff s).withTxs (txsDropFlight s.txs))) else .next s

end Sys2Proof.Machine
end

