-- ==== Sys2Proof/Machine/Resets.lean ====
section
/-! DEFINITION. The meanings of FULL_RESET and SOFT_RESET (R63, R64). -/

namespace Sys2Proof.Machine

/-- The part while RST_N is low (R64, R177 to R179): every block at its full-reset values, and SUB_REQ driven inactive. -/
def heldInReset (s : State) : State :=
  { fullResetState s with rstLow := true, lpt := { State.reset.lpt with subReq := false } }

/-- FULL_RESET (R64): RST_N low holds the part in reset; its rise leaves the station in CONFIG with the reset values. -/
def execFullReset (rstN : Level) (s : State) : Host.Outcome State Fault Refusal :=
  match rstN with
  | .low => .next (heldInReset s)
  | .high => if s.rstLow then .next (fullResetState s) else .next s

/-- The soft reset can take effect: armed with the driver OFF, at the rise of SEL_N; or waiting, at the cut (R63, log 13). -/
def softResetDue (s : State) : Bool :=
  (s.stc.softReset == .armed && s.lif.tx.isNone) || s.stc.softReset == .waiting

/-- SOFT_RESET (R63). -/
def execSoftReset (s : State) : Host.Outcome State Fault Refusal :=
  if softResetDue s then .next (softResetState s) else .next s

end Sys2Proof.Machine
end

