-- ==== Sys2Proof/Machine/Operands.lean ====
section
/-! DEFINITION. The byte layouts the local processor sees: argument encodings, result codes and reply layouts (10). -/

namespace Sys2Proof.Machine

/-! ### Arguments -/

/-- The fault-kind set of two argument bytes, bits 15:10 apart (10, Sets and codes). -/
def kindSetOf (h : Half) : KindSet := h.setWidth 10

/-- Whether bits 15:10 of a fault-kind set are 0. -/
def kindSetClean (h : Half) : Bool := h.toNat < 1024

/-- Argument `i` of a transaction. -/
def arg (args : List Byte) (i : Nat) : Nat := (byteAt args i).toNat

/-- Two argument bytes from `i`, the most-significant first (R181). -/
def argHalf (args : List Byte) (i : Nat) : Half := byteAt args i ++ byteAt args (i + 1)

/-- The item ranges of R171: every coded item names a value, and every number lies in its range (R171, R182). -/
def setupInRange (args : List Byte) : Bool :=
  decide (arg args 0 ≤ 31) && (argHalf args 1 != 0) && decide (arg args 3 ≤ 1) && decide (arg args 4 ≤ 1) &&
    ((List.range 8).all fun i => decide (arg args (5 + i) ≤ 3)) &&
    kindSetClean (argHalf args 13) && kindSetClean (argHalf args 15) &&
    decide (arg args 17 ≤ 3) && decide (arg args 18 ≤ 1) && decide (1 ≤ arg args 19) &&
    decide (1 ≤ arg args 20) && decide (arg args 20 ≤ 15) && [1, 4, 8, 14].contains (arg args 21) &&
    decide (1 ≤ arg args 22) && decide (arg args 22 ≤ 15) && decide (arg args 23 ≤ 1) && decide (arg args 24 ≤ 1) &&
    decide (arg args 25 ≤ 1) && decide (arg args 26 ≤ 1) && decide (arg args 27 ≤ 2)

/-- The presence policy of its code. -/
def presencePolicyOf (n : Nat) : PresencePolicy := if n = 0 then .tolerant else .strict

/-- The unreachable policy of its code. -/
def unreachablePolicyOf (n : Nat) : UnreachablePolicy := if n = 0 then .keep else .discard

/-- The counter selection of its code. -/
def selectionOf (n : Nat) : CounterSelection :=
  match n with
  | 0 => .framing
  | 1 => .crc
  | 2 => .pattern
  | _ => .framingCrc

/-- The report mode of its code. -/
def reportModeOf (n : Nat) : ReportMode := if n = 0 then .onDemand else .periodic

/-- A capture mode of its code. -/
def captureModeOf (n : Nat) : CaptureMode := if n = 0 then .any else .loss

/-- A request-line mode of its code. -/
def lineModeOf (n : Nat) : LineMode := if n = 0 then .mode0 else .mode1

/-- The INT drive of its code. -/
def intDriveOf (n : Nat) : IntDrive :=
  match n with
  | 0 => .openDrainLow
  | 1 => .pushPullLow
  | _ => .pushPullHigh

/-- The items that 28 argument bytes in range carry (10, SETUP). -/
def setupItems (args : List Byte) : Items where
  ownAddress := Fin.ofNat 32 (arg args 0)
  divisor := argHalf args 1
  presence := presencePolicyOf (arg args 3)
  unreachable := unreachablePolicyOf (arg args 4)
  classMap := Vector.ofFn fun i => Fin.ofNat 4 (arg args (5 + i.val))
  masks := kindSetOf (argHalf args 13)
  severities := kindSetOf (argHalf args 15)
  selection := selectionOf (arg args 17)
  reportMode := reportModeOf (arg args 18)
  reportPeriod := arg args 19
  ageLimit := arg args 20
  trigger := arg args 21
  quietLimit := arg args 22
  presenceCapture := captureModeOf (arg args 23)
  qualityCapture := captureModeOf (arg args 24)
  dlvMode := lineModeOf (arg args 25)
  subMode := lineModeOf (arg args 26)
  intDrive := intDriveOf (arg args 27)

/-- The table entry of an argument byte: owner in bits 7:2, floor in bits 1:0 (10, TABLE). -/
def entryOf (b : Byte) : PhaseEntry := ⟨Fin.ofNat 32 (b.toNat / 4), Fin.ofNat 4 b.toNat⟩

/-- Whether an entry byte names an owner up to 31; a floor over 3 cannot be encoded (R24, R182). -/
def entryInRange (b : Byte) : Bool := decide (b.toNat / 4 ≤ 31)

/-! ### Results and replies -/

/-- The result codes (10, Command codes and result codes). -/
inductive Result where
  | ok | busy | full | empty | rejected | unknown
  deriving DecidableEq, Repr

/-- The byte of a result code. -/
def Result.code : Result → Byte
  | .ok => 0x80
  | .busy => 0x81
  | .full => 0x82
  | .empty => 0x83
  | .rejected => 0x84
  | .unknown => 0x85

/-- The idle byte (R181). -/
def idleByte : Byte := 0

/-- A number in one byte. -/
def byteOf (n : Nat) : Byte := BitVec.ofNat 8 n

/-- A two-byte field, the most-significant byte first (R181). -/
def halfBytes (h : Half) : List Byte := [highByte h, lowByte h]

/-- Flags packed into a byte, the first as bit 0. -/
def packBits (flags : List Bool) : Byte := byteOf (byteOfBits flags)

/-- The byte of a station state. -/
def stationByte : Station → Byte
  | .config => 0
  | .listen => 1
  | .cold => 2
  | .active => 3
  | .silent => 4

/-- The pending causes as a cause set. -/
def causeByte (s : State) : Byte := packBits (Cause.byPriority.map (causePending s))

/-- The identified cause as a cause code, 00h for NONE. -/
def identifiedByte (s : State) : Byte :=
  match identifiedCause s with
  | none => 0
  | some k => byteOf k.code

/-- The 21 reply bytes of STATUS (10, STATUS; R175). -/
def statusReply (s : State) : List Byte :=
  [stationByte s.stc.station, packBits [s.ctr.aligned, s.ctr.hold], byteOf (tableLength s), s.ctr.digest, byteOf s.ctr.p.val,
   s.ctr.c, byteOf s.cfg.ownAddress.val, byteOf s.stc.coldAttempts, byteOf s.lif.echoFailures] ++
  (s.txs.queues.toList.map fun q => byteOf q.length) ++
  [byteOf s.txs.free, byteOf s.txs.stack.length, byteOf s.txs.completions.length, byteOf s.rxu.table.length,
   byteOf s.rxu.free, byteOf s.rxu.delivery.length, causeByte s, identifiedByte s]

/-- The code of a presence. -/
def Presence.code : Presence → Nat
  | .self => 0
  | .notScheduled => 1
  | .unseen => 2
  | .present => 3
  | .fading => 4
  | .absent => 5

/-- The code of a quality. -/
def Quality.code : Quality → Nat
  | .unmeasured => 0
  | .good => 1
  | .poor => 2

/-- The 7 reply bytes of one peer record (10, PEERS). -/
def peerReply (a : Addr) (r : Peer) : List Byte :=
  [byteOf a.val, byteOf r.presence.code,
   byteOf (r.silentRun + 4 * r.returnRun + 8 * r.quality.code + 32 * r.mismatch.toNat + 64 * r.presenceChanged.toNat +
     128 * r.qualityChanged.toNat),
   match r.lastErrors with
   | some e => byteOf e
   | none => 0xFF,
   packBits [r.lastHeard.isSome], r.lastHeard.getD 0, byteOf r.owned]

/-- The 17 reply bytes of FAULTS (10, FAULTS; R154). -/
def faultsReply (f : Flt) : List Byte :=
  halfBytes (f.flags.setWidth 16) ++
    match f.first with
    | none => List.replicate 15 0
    | some r =>
      [packBits [true, r.sender.isSome, r.cls.isSome], byteOf r.kind.code,
       byteOf ((r.sender.map Fin.val).getD 0), byteOf ((r.cls.map Fin.val).getD 0), byteOf r.phase.val, r.cycle,
       byteOf r.bytes.length] ++ (r.bytes ++ List.replicate (8 - r.bytes.length) 0)

/-- The reply bytes of FETCH: 5 and the payload (10, FETCH; R122). -/
def fetchReply (d : Delivery) : List Byte :=
  [byteOf d.sender.val, byteOf (d.cls.val + 128 * d.broadcast.toNat)] ++ halfBytes (BitVec.ofNat 16 d.length) ++ [d.cycle] ++
    d.blocks.flatten.take d.length

/-- The code of a completion outcome. -/
def SendOutcome.code : SendOutcome → Nat
  | .sent => 1
  | .withdrawn => 2
  | .unreachable => 3

/-- The two reply bytes of a completion record. -/
def completionReply (k : Completion) : List Byte := [k.tag, byteOf (k.cls.val + 4 * k.outcome.code)]

/-- The reply bytes of COMPLETIONS: the count, then the records, oldest first (10, COMPLETIONS; R80). -/
def completionsReply (ks : List Completion) : List Byte := byteOf ks.length :: (ks.map completionReply).flatten

/-- The 5 reply bytes of COUNTER (10, COUNTER; R162). -/
def counterReply (f : Flt) : List Byte :=
  halfBytes f.snapshot ++ [packBits [f.snapOverflow, f.reportReady, f.liveOverflow]] ++ halfBytes f.lineErrors

end Sys2Proof.Machine
end

