-- ==== Sys2Proof/Machine/Decisions.lean ====
section
/-! DEFINITION. What the owning block decides when each transaction is taken: its result, its reply, and the state it leaves
(R24, R49, R61 to R63, R68, R76, R80, R122, R144, R154, R155, R160, R162, R171 to R175). The argument bytes stand in the
Local Port, the payload of SUBMIT in the staging area. -/

namespace Sys2Proof.Machine

/-- A decision: the result code, the reply bytes after it, and the state. -/
structure Answer where
  result : Result
  reply : List Byte
  state : State

/-- A refusal of the owning block: no reply and no effect (R170). -/
def refuse (r : Result) (s : State) : Answer := ⟨r, [], s⟩

/-- OK with reply bytes. -/
def grant (reply : List Byte) (s : State) : Answer := ⟨.ok, reply, s⟩

/-! ### Configuration -/

/-- What a SETUP with new items does at the other blocks (R172): the items are replaced, the peer records derived, the report
period counter set to 0, the quiet counter brought down to Q, and the request lines set. -/
def applySetup (items : Items) (s : State) : State :=
  settleLines
    { s with
      cfg := items
      pmn := derivePeers s.ctr.table items.ownAddress
      flt := { s.flt with period := 0 }
      rxu := { s.rxu with
        quiet := min s.rxu.quiet items.quietLimit
        quietFlag := s.rxu.quietFlag || decide (items.quietLimit < s.rxu.quiet) } }

/-- SETUP (R171). -/
def decideSetup (s : State) : Answer :=
  if s.stc.station ≠ .config then refuse .busy s
  else if setupInRange s.lpt.args then grant [] (applySetup (setupItems s.lpt.args) s)
  else refuse .rejected s

/-- A table replaced at once, with its digest and the derived peer records (R24, R25, R132). -/
def applyTable (table : List PhaseEntry) (s : State) : State :=
  (s.withCtr { s.ctr with table := table, digest := tableDigest table }).withPmn (derivePeers table s.cfg.ownAddress)

/-- TABLE (R24): the length argument, then the entries. -/
def decideTable (s : State) : Answer :=
  if s.stc.station ≠ .config then refuse .busy s
  else if arg s.lpt.args 0 = 0 ∨ 64 < arg s.lpt.args 0 then refuse .rejected s
  else if (s.lpt.args.drop 1).all entryInRange then grant [] (applyTable ((s.lpt.args.drop 1).map entryOf) s)
  else refuse .rejected s

/-- ENABLE (R174): all six enables replaced; bits 7:6 ignored. -/
def decideEnable (s : State) : Answer :=
  grant [] (s.withLpt { s.lpt with enables := (byteAt s.lpt.args 0).setWidth 6 })

/-- TEST (R173): the named insertions set; bits 7:2 not 0 or bits 1:0 both 0 refused. -/
def decideTest (s : State) : Answer :=
  let b := byteAt s.lpt.args 0
  if b.toNat = 0 ∨ 4 ≤ b.toNat then refuse .rejected s
  else grant [] (s.withFru { s.fru with testPattern := s.fru.testPattern || b.getLsbD 0,
                                        testCrc := s.fru.testCrc || b.getLsbD 1 })

/-! ### State commands -/

/-- The station leaves CONFIG for LISTEN through JOIN (R3, R49, R132). -/
def applyJoin (s : State) : State :=
  enterListen
    { s with
      lif := { s.lif with receiver := .settling }
      stc := { s.stc with coldAttempts := 0 }
      pmn := derivePeers s.ctr.table s.cfg.ownAddress }

/-- JOIN (R49). -/
def decideJoin (s : State) : Answer :=
  if s.stc.station ≠ .config then refuse .busy s
  else if tableLength s = 0 then refuse .rejected s
  else grant [] (applyJoin s)

/-- LEAVE (R59, R62): at once with the driver OFF, at the cut with the driver ON. -/
def applyLeave (s : State) : State :=
  if s.lif.tx.isSome then s.withStc { s.stc with pendingExit := some .toConfig } else enterConfig s

/-- LEAVE (R62). -/
def decideLeave (s : State) : Answer :=
  if s.stc.station = .config then refuse .busy s else grant [] (applyLeave s)

/-- The station leaves SILENT for LISTEN through REJOIN (R61). -/
def applyRejoin (s : State) : State := enterListen (s.withStc { s.stc with coldAttempts := 0 })

/-- REJOIN (R61). -/
def decideRejoin (s : State) : Answer :=
  if s.stc.station = .silent then grant [] (applyRejoin s) else refuse .busy s

/-- RESTART (R63): answered OK; the soft reset is armed for the rise of SEL_N. -/
def decideRestart (s : State) : Answer := grant [] (s.withStc { s.stc with softReset := .armed })

/-! ### Transmit transactions -/

/-- The length field of a SUBMIT header. -/
def submitLength (args : List Byte) : Nat := (argHalf args 3).toNat

/-- Check 1 of R68. -/
def submitRejected (s : State) : Bool :=
  let a := s.lpt.args
  decide (7 < arg a 1) || decide (submitLength a = 0) || decide (512 < submitLength a) ||
    badDestination (byteAt a 2) || decide (arg a 2 = s.cfg.ownAddress.val)

/-- The class of a SUBMIT: the class map's entry for its local priority (R66). -/
def submitClass (s : State) : Cls := s.cfg.classMap[Fin.ofNat 8 (arg s.lpt.args 1)]

/-- The record of a SUBMIT taken with OK (R69). -/
def submitMessage (s : State) : Message where
  tag := byteAt s.lpt.args 0
  cls := submitClass s
  destination := byteAt s.lpt.args 2
  length := submitLength s.lpt.args
  blocks := cutBlocks (segmentCount (submitLength s.lpt.args)) s.txs.staging
  state := .queued

/-- A record stored at the tail of its class queue, its pool blocks taken (R69). -/
def store (m : Message) (t : Txs) : Txs :=
  { t with queues := t.queues.set m.cls (t.queues[m.cls] ++ [m]), free := t.free - m.held }

/-- SUBMIT (R68, R69). -/
def decideSubmit (s : State) : Answer :=
  let m := submitMessage s
  if submitRejected s then refuse .rejected s
  else if (findMessage m.tag s.txs).isSome then refuse .rejected s
  else if Config.classQueuePlaces ≤ s.txs.queues[m.cls].length then refuse .full s
  else if s.txs.free < segmentCount m.length then refuse .full s
  else grant [] (driveSub (s.withTxs (store m s.txs)))

/-- A segment of the message with this tag is on the line (R78): a DATA frame of it is in flight. -/
def onLine (tag : Tag) (t : Txs) : Bool :=
  match t.inFlight with
  | some (.data x _ _) => x == tag
  | _ => false

/-- A withdrawn message leaves its queue and, if it is STARTED, its context (R76, R77). -/
def withdrawMessage (m : Message) (t : Txs) : Txs :=
  let t' := depart m .withdrawn t
  { t' with current := t'.current.filter (· != m.tag), stack := t'.stack.filter (· != m.tag) }

/-- WITHDRAW (R76). -/
def decideWithdraw (s : State) : Answer :=
  match findMessage (byteAt s.lpt.args 0) s.txs with
  | none => refuse .rejected s
  | some m =>
    if onLine m.tag s.txs then refuse .busy s
    else if completionsFull s.txs then refuse .busy s
    else grant [] (driveSub (s.withTxs (withdrawMessage m s.txs)))

/-- COMPLETIONS (R80). -/
def decideCompletions (s : State) : Answer :=
  let n := arg s.lpt.args 0
  if n = 0 ∨ 16 < n then refuse .rejected s
  else if s.txs.completions.isEmpty then refuse .empty s
  else grant (completionsReply (s.txs.completions.take n)) (s.withTxs { s.txs with completions := s.txs.completions.drop n })

/-! ### Reading -/

/-- The Receive Unit after the head record is fetched (R122, R124). -/
def fetched (d : Delivery) (rest : List Delivery) (x : Rxu) : Rxu :=
  { x with delivery := rest, free := x.free + d.blocks.length, quiet := 0, quietFlag := false }

/-- FETCH (R122). -/
def decideFetch (s : State) : Answer :=
  match s.rxu.delivery with
  | [] => refuse .empty s
  | d :: rest => grant (fetchReply d) (driveDlv (s.withRxu (fetched d rest s.rxu)))

/-- STATUS (R175): the reply shows the state as it stands, then the STATION cause is cleared (R65). -/
def decideStatus (s : State) : Answer := grant (statusReply s) (s.withStc { s.stc with stationCause := false })

/-- The records of addresses first to first + count - 1, in ascending order. -/
def peerRange (first count : Nat) : List Addr :=
  (List.finRange 32).filter fun a => decide (first ≤ a.val) && decide (a.val < first + count)

/-- A record with its change flags cleared (R144). -/
def Peer.read (r : Peer) : Peer := { r with presenceChanged := false, qualityChanged := false }

/-- The Peer Monitor after a PEERS read of a range. -/
def peersRead (first count : Nat) (x : Pmn) : Pmn :=
  { x with peers := Vector.ofFn fun a =>
      if first ≤ a.val ∧ a.val < first + count then x.peers[a].read else x.peers[a] }

/-- PEERS (R144). -/
def decidePeers (s : State) : Answer :=
  let first := arg s.lpt.args 0
  let count := arg s.lpt.args 1
  if 31 < first ∨ count = 0 ∨ 32 < count ∨ 32 < first + count then refuse .rejected s
  else grant ((peerRange first count).map fun a => peerReply a s.pmn.peers[a]).flatten
    (s.withPmn (peersRead first count s.pmn))

/-- FAULTS (R154). -/
def decideFaults (s : State) : Answer := grant (faultsReply s.flt) s

/-- The Fault Unit after a FAULT CLEAR of a set: the flags of the set are cleared, and a record of a kind in the set becomes
invalid (R155). -/
def clearFaults (gone : KindSet) (f : Flt) : Flt :=
  { f with flags := removeKinds f.flags gone, first := f.first.filter fun r => !hasKind gone r.kind }

/-- FAULT CLEAR (R155): bits 15:10 ignored. -/
def decideFaultClear (s : State) : Answer :=
  grant [] (s.withFlt (clearFaults (kindSetOf (argHalf s.lpt.args 0)) s.flt))

/-- COUNTER (R162): the reply, then the report-ready flag and the live overflow flag are cleared. -/
def decideCounter (s : State) : Answer :=
  grant (counterReply s.flt) (s.withFlt { s.flt with reportReady := false, liveOverflow := false })

/-- SNAPSHOT (R160): a transfer in ON_DEMAND mode, refused in PERIODIC mode. -/
def decideSnapshot (s : State) : Answer :=
  match s.cfg.reportMode with
  | .onDemand => grant [] (s.withFlt (transfer s.flt))
  | .periodic => refuse .rejected s

/-- The decision of the block that owns a command (09, Commands and where they are decided). -/
def decideCommand (c : Command) (s : State) : Answer :=
  match c with
  | .setup => decideSetup s
  | .table => decideTable s
  | .join => decideJoin s
  | .leave => decideLeave s
  | .rejoin => decideRejoin s
  | .restart => decideRestart s
  | .enable => decideEnable s
  | .test => decideTest s
  | .submit => decideSubmit s
  | .withdraw => decideWithdraw s
  | .completions => decideCompletions s
  | .fetch => decideFetch s
  | .status => decideStatus s
  | .peers => decidePeers s
  | .faults => decideFaults s
  | .faultClear => decideFaultClear s
  | .counter => decideCounter s
  | .snapshot => decideSnapshot s

end Sys2Proof.Machine
end

