-- ==== Sys2Proof/Machine/Port.lean ====
section
/-! DEFINITION. The Local Port: framing, the taking of a transaction, answers, and the five rows of the port's own events
(R166 to R170). -/

namespace Sys2Proof.Machine

/-- A soft reset waits to take effect: SEL_N has risen after a RESTART and the cut has not come (R63, R170). -/
def resetWaits (s : State) : Bool := s.stc.softReset == .waiting

/-- The Local Port answers: the result code, then the reply bytes (R168). The argument bytes and the staging area hold
nothing for a later transaction (R67). -/
def answer (a : Answer) : State :=
  (a.state.withTxs { a.state.txs with staging := [] }).withLpt
    { a.state.lpt with state := .answer, reply := a.result.code :: a.reply, command := none, args := [] }

/-- A known command is taken: BUSY while a soft reset waits (R170), otherwise as its owning block decides. -/
def takeCommand (c : Command) (s : State) : State :=
  answer (if resetWaits s then refuse .busy s else decideCommand c s)

/-- A code the port does not know is taken at once (R170). While a soft reset waits the rules give both BUSY and UNKNOWN
(log 9). -/
def takeUnknown (s : State) : State :=
  answer (refuse (if resetWaits s && Config.unknownAnsweredBusy then .busy else .unknown) s)

/-- Whether a transaction with these argument and payload bytes can be taken now: SEL_N is low, the bytes are as many as the
command calls for, and those already received are its first ones (R167, log 3). -/
def awaits (c : Command) (args payload : List Byte) (s : State) : Bool :=
  c.argumentTotal args == some (args.length + payload.length) &&
    (s.lpt.state == .command ||
      (s.lpt.state == .arguments && s.lpt.command == some c && s.lpt.args.isPrefixOf args && s.txs.staging.isPrefixOf payload))

/-- The remaining bytes of a transaction arrive (R167); of a SUBMIT payload the first 512 are kept (R67). -/
def receiveAll (c : Command) (args payload : List Byte) (s : State) : State :=
  (s.withTxs { s.txs with staging := payload.take Config.stagingBytes }).withLpt
    { s.lpt with state := .arguments, command := some c, byteCount := 1 + args.length + payload.length, args := args,
                 sdo := some idleByte }

/-- A transaction is taken: its remaining bytes arrive and the owning block acts on it. In a state that awaits no such
transaction nothing is taken (R166, R168, log 2). -/
def transact (c : Command) (args payload : List Byte) (s : State) : State :=
  if awaits c args payload s then takeCommand c (receiveAll c args payload s) else s

/-! ### Bytes (R166 to R168) -/

/-- An argument byte is counted and passed on; a SUBMIT payload byte goes to the staging area, up to its 512 places (R67). -/
def passOn (c : Command) (b : Byte) (s : State) : State :=
  let counted := { s.lpt with byteCount := s.lpt.byteCount + 1, sdo := some idleByte }
  if c = .submit ∧ 5 ≤ s.lpt.args.length then
    (s.withLpt counted).withTxs
      { s.txs with staging := if s.txs.staging.length < Config.stagingBytes then s.txs.staging ++ [b] else s.txs.staging }
  else s.withLpt { counted with args := s.lpt.args ++ [b] }

/-- Whether the bytes received so far are all that the command calls for; one of them is the command byte. -/
def complete (c : Command) (s : State) : Bool := c.argumentTotal s.lpt.args == some (s.lpt.byteCount - 1)

/-- The command byte arrives (R167). -/
def commandByte (b : Byte) (s : State) : State :=
  let s' := s.withLpt { s.lpt with byteCount := 1, sdo := some idleByte }
  match Command.ofCode b with
  | none => takeUnknown s'
  | some c =>
    let s'' := s'.withLpt { s'.lpt with command := some c, state := .arguments }
    if complete c s'' then takeCommand c s'' else s''

/-- An argument byte arrives; the last one takes the transaction (R167). -/
def argumentByte (b : Byte) (s : State) : State :=
  match s.lpt.command with
  | none => s
  | some c => if complete c (passOn c b s) then takeCommand c (passOn c b s) else passOn c b s

/-- A byte is clocked out of the answer; after the last one the port enters DISCARD (R168). -/
def replyByte (s : State) : State :=
  match s.lpt.reply with
  | [] => s.withLpt { s.lpt with sdo := some idleByte, state := .discard }
  | [b] => s.withLpt { s.lpt with sdo := some b, reply := [], state := .discard }
  | b :: rest => s.withLpt { s.lpt with sdo := some b, reply := rest }

/-- One completed byte, by transaction state (R166 to R168). -/
def receiveByte (b : Byte) (s : State) : State :=
  match s.lpt.state with
  | .idle => s
  | .command => commandByte b s
  | .arguments => argumentByte b s
  | .answer => replyByte s
  | .discard => s.withLpt { s.lpt with sdo := some idleByte }

/-- The port in IDLE after a rise of SEL_N: SDO released, and nothing of the transaction left (R166, R169). -/
def portIdle (s : State) : State :=
  (s.withTxs { s.txs with staging := [] }).withLpt
    { s.lpt with state := .idle, byteCount := 0, command := none, args := [], reply := [], sdo := none }

/-- What the rise of SEL_N does with an armed soft reset (R63): with the driver OFF it takes effect, with the driver ON it
waits for the cut. -/
def riseReset (s : State) : State :=
  if s.stc.softReset = .armed then
    if s.lif.tx.isSome then s.withStc { s.stc with softReset := .waiting } else softResetState s
  else s

/-! ### Meanings -/

/-- SEL_N_FALL (R166, R170): from IDLE to COMMAND with a byte count of 0; not answered while RST_N is low. -/
def execSelNFall (s : State) : Host.Outcome State Fault Refusal :=
  if s.lpt.state = .idle ∧ s.rstLow = false then
    .next (s.withLpt { s.lpt with state := .command, byteCount := 0, command := none, args := [], reply := [],
                                  sdo := some idleByte })
  else .next s

/-- TRANSACTION_ABANDONED (R169): from COMMAND or ARGUMENTS to IDLE with no effect. -/
def execTransactionAbandoned (s : State) : Host.Outcome State Fault Refusal :=
  if s.lpt.state = .command ∨ s.lpt.state = .arguments then .next (portIdle s) else .next s

/-- TRANSACTION_END (R63, R168): from ANSWER or DISCARD to IDLE, with the rise of an armed soft reset. -/
def execTransactionEnd (s : State) : Host.Outcome State Fault Refusal :=
  if s.lpt.state = .answer ∨ s.lpt.state = .discard then .next (riseReset (portIdle s)) else .next s

/-- UNKNOWN_COMMAND (R170): a command byte that names no command. -/
def execUnknownCommand (code : Byte) (s : State) : Host.Outcome State Fault Refusal :=
  if s.lpt.state = .command ∧ Command.ofCode code = none then
    .next (takeUnknown (s.withLpt { s.lpt with byteCount := 1, sdo := some idleByte }))
  else .next s

/-- PORT_BYTE_COMPLETED (R166 to R168): the byte is the one that eight levels of SDI complete (clockedBytes), and the byte sent
beside it stands on SDO (sdoPin). -/
def execPortByteCompleted (sdi : Byte) (s : State) : Host.Outcome State Fault Refusal := .next (receiveByte sdi s)

end Sys2Proof.Machine
end

