-- ==== Sys2Proof/Machine/Transactions.lean ====
section
/-! DEFINITION. The meanings of the eighteen transactions of the local port, each at the moment it is taken (R167; 09,
Commands and where they are decided). What each does is its decision in Decisions.lean. -/

namespace Sys2Proof.Machine

/-- SETUP (R171, R172). -/
def execSetup (args : List Byte) (s : State) : Host.Outcome State Fault Refusal := .next (transact .setup args [] s)

/-- TABLE (R24). -/
def execTable (length : Byte) (entries : List Byte) (s : State) : Host.Outcome State Fault Refusal :=
  .next (transact .table (length :: entries) [] s)

/-- JOIN (R49). -/
def execJoin (s : State) : Host.Outcome State Fault Refusal := .next (transact .join [] [] s)

/-- LEAVE (R62). -/
def execLeave (s : State) : Host.Outcome State Fault Refusal := .next (transact .leave [] [] s)

/-- REJOIN (R61). -/
def execRejoin (s : State) : Host.Outcome State Fault Refusal := .next (transact .rejoin [] [] s)

/-- RESTART (R63). -/
def execRestart (s : State) : Host.Outcome State Fault Refusal := .next (transact .restart [] [] s)

/-- ENABLE (R174). -/
def execEnable (causes : Byte) (s : State) : Host.Outcome State Fault Refusal := .next (transact .enable [causes] [] s)

/-- TEST (R173). -/
def execTest (insertions : Byte) (s : State) : Host.Outcome State Fault Refusal := .next (transact .test [insertions] [] s)

/-- The five header bytes of a SUBMIT (10, SUBMIT). -/
def submitHeader (tag priority destination : Byte) (length : Half) : List Byte :=
  [tag, priority, destination, highByte length, lowByte length]

/-- SUBMIT (R67 to R69). -/
def execSubmit (tag priority destination : Byte) (length : Half) (payload : List Byte) (s : State) :
    Host.Outcome State Fault Refusal :=
  .next (transact .submit (submitHeader tag priority destination length) payload s)

/-- WITHDRAW (R76). -/
def execWithdraw (tag : Byte) (s : State) : Host.Outcome State Fault Refusal := .next (transact .withdraw [tag] [] s)

/-- COMPLETIONS (R80). -/
def execCompletions (n : Byte) (s : State) : Host.Outcome State Fault Refusal := .next (transact .completions [n] [] s)

/-- FETCH (R122). -/
def execFetch (s : State) : Host.Outcome State Fault Refusal := .next (transact .fetch [] [] s)

/-- STATUS (R175). -/
def execStatus (s : State) : Host.Outcome State Fault Refusal := .next (transact .status [] [] s)

/-- PEERS (R144). -/
def execPeers (first count : Byte) (s : State) : Host.Outcome State Fault Refusal := .next (transact .peers [first, count] [] s)

/-- FAULTS (R154). -/
def execFaults (s : State) : Host.Outcome State Fault Refusal := .next (transact .faults [] [] s)

/-- FAULT CLEAR (R155). -/
def execFaultClear (kinds : Half) (s : State) : Host.Outcome State Fault Refusal :=
  .next (transact .faultClear (halfBytes kinds) [] s)

/-- COUNTER (R162). -/
def execCounter (s : State) : Host.Outcome State Fault Refusal := .next (transact .counter [] [] s)

/-- SNAPSHOT (R160). -/
def execSnapshot (s : State) : Host.Outcome State Fault Refusal := .next (transact .snapshot [] [] s)

end Sys2Proof.Machine
end

