-- ==== Sys2Proof/Machine/Dispatch.lean ====
section
/-! DEFINITION. One arm per command, each one call of its meaning. -/

namespace Sys2Proof.Machine

def exec (i : Instr) (s : State) : Host.Outcome State Fault Refusal :=
  match i with
  | .fullReset rstN => Sys2Proof.Machine.execFullReset rstN s
  | .selNFall => Sys2Proof.Machine.execSelNFall s
  | .transactionAbandoned => Sys2Proof.Machine.execTransactionAbandoned s
  | .unknownCommand code => Sys2Proof.Machine.execUnknownCommand code s
  | .setup args => Sys2Proof.Machine.execSetup args s
  | .table length entries => Sys2Proof.Machine.execTable length entries s
  | .join => Sys2Proof.Machine.execJoin s
  | .leave => Sys2Proof.Machine.execLeave s
  | .rejoin => Sys2Proof.Machine.execRejoin s
  | .restart => Sys2Proof.Machine.execRestart s
  | .softReset => Sys2Proof.Machine.execSoftReset s
  | .enable causes => Sys2Proof.Machine.execEnable causes s
  | .test insertions => Sys2Proof.Machine.execTest insertions s
  | .submit tag priority destination length payload => Sys2Proof.Machine.execSubmit tag priority destination length payload s
  | .withdraw tag => Sys2Proof.Machine.execWithdraw tag s
  | .completions n => Sys2Proof.Machine.execCompletions n s
  | .fetch => Sys2Proof.Machine.execFetch s
  | .status => Sys2Proof.Machine.execStatus s
  | .peers first count => Sys2Proof.Machine.execPeers first count s
  | .faults => Sys2Proof.Machine.execFaults s
  | .faultClear kinds => Sys2Proof.Machine.execFaultClear kinds s
  | .counter => Sys2Proof.Machine.execCounter s
  | .snapshot => Sys2Proof.Machine.execSnapshot s
  | .receiverSettled => Sys2Proof.Machine.execReceiverSettled s
  | .startBitSeen => Sys2Proof.Machine.execStartBitSeen s
  | .characterReceived data stopBit => Sys2Proof.Machine.execCharacterReceived data stopBit s
  | .frameEnd => Sys2Proof.Machine.execFrameEnd s
  | .entryAged sender cls => Sys2Proof.Machine.execEntryAged sender cls s
  | .quietLimitReached => Sys2Proof.Machine.execQuietLimitReached s
  | .periodicTransfer => Sys2Proof.Machine.execPeriodicTransfer s
  | .echoClean => Sys2Proof.Machine.execEchoClean s
  | .echoFailure => Sys2Proof.Machine.execEchoFailure s
  | .cut => Sys2Proof.Machine.execCut s
  | .skipExpiry => Sys2Proof.Machine.execSkipExpiry s
  | .coldStartWaitExpiry => Sys2Proof.Machine.execColdStartWaitExpiry s
  | .fallingEdge => Sys2Proof.Machine.execFallingEdge s
  | .falseStart => Sys2Proof.Machine.execFalseStart s
  | .breakEnded => Sys2Proof.Machine.execBreakEnded s
  | .portByteCompleted sdi => Sys2Proof.Machine.execPortByteCompleted sdi s
  | .transactionEnd => Sys2Proof.Machine.execTransactionEnd s

end Sys2Proof.Machine
end

