-- ==== Sys2Proof/Machine/Step.lean ====
section
/-! DEFINITION. One step: the front command of the queue, or idling on an empty queue. -/

namespace Sys2Proof.Machine

/-- One step: the command at the front of the queue runs on the state with the queue's rest; on an empty queue the block
idles (log 1). -/
def step (s : State) : Host.Outcome State Fault Refusal :=
  match s.pending with
  | [] => .next s
  | c :: rest => exec c (s.withPending rest)

/-- The state with the command a table word spells at the front of its queue; unchanged where the word spells none, which
is every word, since no row gives bits (log 25). -/
def State.withFetchWord (s : State) (nbits w : Nat) : State :=
  match Sys2Proof.decodeTableWord nbits w with
  | some c => s.withPending (c :: s.pending)
  | none => s

end Sys2Proof.Machine
end

