-- ==== Sys2Proof/Safety.lean ====
section
/-! DEFINITION. What the manual promises of every state of the part: the statements it prints in bold, and the ranges of its
counters; and the words the statements about single commands are made of. -/

namespace Sys2Proof.Machine

/-! ### Steps -/

/-- A run of one step after another: each item of a list takes a value to the next one. -/
def Steps {α β : Type} (step : β → α → α → Prop) : List β → α → α → Prop
  | [], x, y => y = x
  | b :: bs, x, y => ∃ z, step b x z ∧ Steps step bs z y

/-! ### The transmit side -/

/-- R71: free pool blocks plus those held by queued messages are 64. -/
def TxPoolWhole (s : State) : Prop := s.txs.free + ((messages s.txs).map Message.held).sum = 64

/-- R72: each class queue holds at most 8 messages. -/
def QueuesBounded (s : State) : Prop := ∀ k : Cls, s.txs.queues[k].length ≤ 8

/-- R73: no two messages in the class queues carry the same tag. -/
def TagsDistinct (s : State) : Prop := ((messages s.txs).map Message.tag).Nodup

/-- Each record stands in the queue of its class, and its block list has one pool block per segment (R69, R72). -/
def RecordsPlaced (s : State) : Prop :=
  ∀ k : Cls, ∀ m ∈ s.txs.queues[k], m.cls = k ∧ m.blocks.length = segmentCount m.length

/-- R79, R96: the completion records and the reserved place are at most 16. -/
def CompletionsBounded (s : State) : Prop := completionsCounted s.txs ≤ 16

/-- The transmit side's promises that do not speak of contexts. -/
structure TransmitInv (s : State) : Prop where
  pool : TxPoolWhole s
  queues : QueuesBounded s
  tags : TagsDistinct s
  placed : RecordsPlaced s

/-- The tags of the contexts, the current one first, then the stack from its top (R85). -/
def contexts (t : Txs) : List Tag := t.current.toList ++ t.stack

/-- A message is STARTED (R74). -/
def Message.isStarted (m : Message) : Bool := m.number.isSome

/-- R74, R85, R86: there are messages, one per context, each the head of its class queue and STARTED, whose classes strictly
increase from the current context to the bottom of the stack; every STARTED record is one of them; the stack holds at most 3. -/
def ContextsOrdered (s : State) : Prop :=
  ∃ ms : List Message,
    ms.map Message.tag = contexts s.txs ∧
    (∀ m ∈ ms, s.txs.queues[m.cls].head? = some m ∧ m.isStarted) ∧
    (ms.map Message.cls).Pairwise (· < ·) ∧
    (∀ m ∈ messages s.txs, m.isStarted → m ∈ ms) ∧
    s.txs.stack.length ≤ 3

/-- R96 to R98: a DATA frame in flight carries the next segment of the current context's message. -/
def FlightFollows (s : State) : Prop :=
  ∀ tag index last, s.txs.inFlight = some (.data tag index last) →
    s.txs.current = some tag ∧
      ∃ m, findMessage tag s.txs = some m ∧ m.sent = index ∧ m.isStarted ∧ last = isLast m index

/-- R98, R103: a frame is in flight only while the driver is ON and the station is in ACTIVE. -/
def FlightOnLine (s : State) : Prop :=
  s.txs.inFlight.isSome → s.lif.tx.isSome ∧ s.stc.station = .active

/-- What keeps the contexts in order: the records, the contexts themselves and the frame in flight. -/
structure ContextInv (s : State) : Prop where
  records : TransmitInv s
  ordered : ContextsOrdered s
  follows : FlightFollows s
  onLine : FlightOnLine s

/-! ### The receive side -/

/-- R108: free pool blocks plus those held by entries and by delivery records are 64. -/
def RxPoolWhole (s : State) : Prop :=
  s.rxu.free + entryBlocks s.rxu.table + deliveryBlocks s.rxu.delivery = 64

/-- R110: at most 8 entries, one per sender and class, each with 1 to 7 pool blocks, one per segment received. The model keeps
them by ascending sender and class (log 16). -/
structure ReassemblyWf (s : State) : Prop where
  bound : s.rxu.table.length ≤ 8
  keys : (s.rxu.table.map Entry.rank).Pairwise (· < ·)
  blocks : ∀ e ∈ s.rxu.table, e.next = e.blocks.length ∧ 1 ≤ e.next ∧ e.next ≤ 7

/-- R121: at most 16 records, each with a length of 1 to 512 and ceil(length/64) pool blocks. -/
structure DeliveryWf (s : State) : Prop where
  bound : s.rxu.delivery.length ≤ 16
  records : ∀ d ∈ s.rxu.delivery, 1 ≤ d.length ∧ d.length ≤ 512 ∧ d.blocks.length = segmentCount d.length

/-- The receive side's promises. -/
structure ReceiveInv (s : State) : Prop where
  pool : RxPoolWhole s
  table : ReassemblyWf s
  delivery : DeliveryWf s

/-! ### The Fault Unit -/

/-- R151: the first-fault record is valid only while the status flag of its kind is set. -/
def FirstFaultFlagged (s : State) : Prop := ∀ r, s.flt.first = some r → hasKind s.flt.flags r.kind = true

/-! ### The Cycle Tracker, the Station Controller and the Line Interface -/

/-- R23, R27, R35, R39, R47: the table has at most 64 entries; while ALIGNED, p is below L and the station is in ACTIVE or
SILENT, and ACTIVE is always ALIGNED; the skip timer is stopped while UNALIGNED (R27); the cold-start wait runs in LISTEN
alone and for an owned phase; COLD is entered for an owned phase; a COLD alignment is pending in COLD alone; the driver is
ON in COLD or ACTIVE alone; the receiver is OFF exactly in CONFIG; a change of state or a soft reset that waits for the
cut has the driver ON. -/
structure StationInv (s : State) : Prop where
  tableBound : s.ctr.table.length ≤ 64
  inTable : s.ctr.aligned = true → s.ctr.p.val < s.ctr.table.length
  alignedIn : s.ctr.aligned = true → s.stc.station = .active ∨ s.stc.station = .silent
  activeAligned : s.stc.station = .active → s.ctr.aligned = true
  skipStopped : s.ctr.aligned = false → s.ctr.skip = .stopped
  waitIn : s.ctr.coldWait.isSome → s.stc.station = .listen ∧ ownsPhase s = true
  coldOwns : s.stc.station = .cold → ownsPhase s = true
  pendingIn : s.ctr.coldAlignPending = true → s.stc.station = .cold
  driverIn : s.lif.tx.isSome → s.stc.station = .cold ∨ s.stc.station = .active
  receiverOff : s.lif.receiver = .off ↔ s.stc.station = .config
  exitDriver : s.stc.pendingExit.isSome → s.lif.tx.isSome
  resetDriver : s.stc.softReset = .waiting → s.lif.tx.isSome
  holdIn : s.ctr.hold = true → s.stc.station = .active

/-- The ranges of the counters (R10, R55, R116, R124, R159), with an empty reassembly table in CONFIG (R129). -/
structure CountersInv (s : State) : Prop where
  echo : s.lif.echoFailures ≤ 3
  cold : s.stc.coldAttempts ≤ 7
  quiet : s.rxu.quiet ≤ s.cfg.quietLimit
  ages : ∀ e ∈ s.rxu.table, e.age < s.cfg.ageLimit
  period : s.flt.period < s.cfg.reportPeriod
  ageLimit : 1 ≤ s.cfg.ageLimit
  configEmpty : s.stc.station = .config → s.rxu.table = []

/-! ### The Local Port -/

/-- R166, R167: in COMMAND no argument byte has come; in ARGUMENTS of any command but SUBMIT, whose payload goes to the staging
area (R67), the byte count is the command byte and the argument bytes held. -/
structure PortInv (s : State) : Prop where
  command : s.lpt.state = .command → s.lpt.args = []
  counted : s.lpt.state = .arguments → s.lpt.command ≠ some .submit → s.lpt.byteCount = s.lpt.args.length + 1

/-! ### The request lines -/

/-- R178, R179: with RST_N high, the line of a mode 0 follows its level; a line of mode 1 is active where its condition for
becoming active holds and inactive where its condition for ending holds. With it what R126 and R178 say of an empty delivery
queue: the trigger is at least 1, and neither the quiet flag nor the quiet counter stands over it. -/
structure LinesInv (s : State) : Prop where
  trigger : 1 ≤ s.cfg.trigger
  quietFlag : s.rxu.quietFlag = true → s.rxu.delivery ≠ []
  quiet : 0 < s.rxu.quiet → s.rxu.delivery ≠ []
  sub0 : s.rstLow = false → s.cfg.subMode = .mode0 → (s.lpt.subReq = true ↔ 8 ≤ s.txs.free)
  sub1on : s.rstLow = false → s.cfg.subMode = .mode1 → 32 ≤ s.txs.free → s.lpt.subReq = true
  sub1off : s.rstLow = false → s.cfg.subMode = .mode1 → s.txs.free < 8 → s.lpt.subReq = false
  dlv0 : s.rstLow = false → s.cfg.dlvMode = .mode0 → (s.lpt.dlvReq = true ↔ s.rxu.delivery ≠ [])
  dlv1on : s.rstLow = false → s.cfg.dlvMode = .mode1 →
    s.cfg.trigger ≤ s.rxu.delivery.length ∨ s.rxu.quietFlag = true → s.lpt.dlvReq = true
  dlv1off : s.rstLow = false → s.cfg.dlvMode = .mode1 → s.rxu.delivery = [] → s.lpt.dlvReq = false

/-! ### Frames: what a command leaves alone -/

/-- The parts of the state, the queue of commands apart. -/
inductive Part where
  | lif | fru | ctr | stc | txs | rxu | pmn | flt | lpt | cfg | rstLow | freeCount
  deriving DecidableEq, Repr

/-- A part is the same in two states. -/
def Part.Same (s t : State) : Part → Prop
  | .lif => t.lif = s.lif
  | .fru => t.fru = s.fru
  | .ctr => t.ctr = s.ctr
  | .stc => t.stc = s.stc
  | .txs => t.txs = s.txs
  | .rxu => t.rxu = s.rxu
  | .pmn => t.pmn = s.pmn
  | .flt => t.flt = s.flt
  | .lpt => t.lpt = s.lpt
  | .cfg => t.cfg = s.cfg
  | .rstLow => t.rstLow = s.rstLow
  | .freeCount => t.freeCount = s.freeCount

/-- Every part that is not named is unchanged, and so is the queue of waiting commands. -/
def SameOutside (named : List Part) (s t : State) : Prop :=
  (∀ x : Part, x ∉ named → x.Same s t) ∧ t.pending = s.pending

/-- The enables and the two request lines are unchanged. -/
def LinesKept (s t : State) : Prop :=
  t.lpt.enables = s.lpt.enables ∧ t.lpt.dlvReq = s.lpt.dlvReq ∧ t.lpt.subReq = s.lpt.subReq

/-- The Transmit Scheduler is unchanged, but that the staging area holds nothing after a transaction is taken (R67). -/
def TransmitKept (s t : State) : Prop := t.txs = { s.txs with staging := [] }

/-- The commands that are events of the line, of its timers, or of a cycle boundary. -/
def LineEvent : Instr → Prop
  | .receiverSettled | .startBitSeen | .characterReceived _ _ | .frameEnd | .entryAged _ _ | .quietLimitReached
  | .periodicTransfer | .echoClean | .echoFailure | .cut | .skipExpiry | .coldStartWaitExpiry | .fallingEdge | .falseStart
  | .breakEnded => True
  | _ => False

/-! ### Transactions -/

/-- The transaction a command stands for: its command, its argument bytes and its payload bytes. -/
def transactionOf : Instr → Option (Command × List Byte × List Byte)
  | .setup args => some (.setup, args, [])
  | .table length entries => some (.table, length :: entries, [])
  | .join => some (.join, [], [])
  | .leave => some (.leave, [], [])
  | .rejoin => some (.rejoin, [], [])
  | .restart => some (.restart, [], [])
  | .enable causes => some (.enable, [causes], [])
  | .test insertions => some (.test, [insertions], [])
  | .submit tag priority destination length payload => some (.submit, submitHeader tag priority destination length, payload)
  | .withdraw tag => some (.withdraw, [tag], [])
  | .completions n => some (.completions, [n], [])
  | .fetch => some (.fetch, [], [])
  | .status => some (.status, [], [])
  | .peers first count => some (.peers, [first, count], [])
  | .faults => some (.faults, [], [])
  | .faultClear kinds => some (.faultClear, halfBytes kinds, [])
  | .counter => some (.counter, [], [])
  | .snapshot => some (.snapshot, [], [])
  | .fullReset _ | .selNFall | .transactionAbandoned | .unknownCommand _ | .softReset | .receiverSettled | .startBitSeen
  | .characterReceived _ _ | .frameEnd | .entryAged _ _ | .quietLimitReached | .periodicTransfer | .echoClean | .echoFailure
  | .cut | .skipExpiry | .coldStartWaitExpiry | .fallingEdge | .falseStart | .breakEnded | .portByteCompleted _
  | .transactionEnd => none

/-- The port awaits this transaction: SEL_N is low and it is not yet taken, its bytes are as many as its command calls for, and
those that have already arrived are its first ones (R166, R167). -/
def Awaited (i : Instr) (s : State) : Prop :=
  match transactionOf i with
  | some (c, args, payload) => awaits c args payload s = true
  | none => False

/-- The transaction is awaited, and no soft reset waits to take effect (R170). -/
def Takeable (i : Instr) (s : State) : Prop := Awaited i s ∧ s.stc.softReset ≠ .waiting

/-- A transaction without arguments is taken when its command byte arrives (R167). -/
def TakenByItsCode (i : Instr) (code : Byte) (s : State) : Prop :=
  s.lpt.state = .command → s.lpt.args = [] → s.txs.staging = [] → exec (.portByteCompleted code) s = exec i s

/-- The port has taken the transaction and answers with a result and its reply bytes (R167, R168). -/
structure Answered (r : Result) (reply : List Byte) (t : State) : Prop where
  state : t.lpt.state = .answer
  bytes : t.lpt.reply = r.code :: reply
  staging : t.txs.staging = []

/-- The transaction was answered and nothing else happened (R170). -/
structure OnlyAnswered (r : Result) (reply : List Byte) (s t : State) : Prop where
  answered : Answered r reply t
  transmit : TransmitKept s t
  lines : LinesKept s t
  others : SameOutside [.lpt, .txs] s t

/-- The peer records and marks a derivation gives (R132). -/
def DerivedPeers (table : List PhaseEntry) (own : Addr) (x : Pmn) : Prop :=
  ∀ a : Addr,
    x.marks[a] = false ∧
      x.peers[a] =
        Peer.derived
          (if a = own then .self else if (table.filter fun e => e.owner == a).length = 0 then .notScheduled else .unseen)
          (table.filter fun e => e.owner == a).length

/-! ### The line -/

/-- The driver is OFF and no character is in progress: a frame can end here (R5, R103). -/
def LineFree (s : State) : Prop := s.lif.tx = none ∧ (s.lif.receiver = .idle ∨ s.lif.receiver = .brk)

/-- The bits of a byte in the order they stand on the line, the least-significant first (R2). -/
def lineBits (b : Byte) : List Bool := (List.range 8).map b.getLsbD

/-- R16: one data bit into the CRC register: shifted right by one place with a 0 entering bit 15, then combined by exclusive-or
with 8408h where bit 0 before the shift differed from the data bit. -/
def CrcStep (d : Bool) (r r' : Half) : Prop :=
  r'.toNat = if r.toNat % 2 = d.toNat then r.toNat / 2 else (r.toNat / 2) ^^^ 0x8408

/-- R17: one step of the pattern register: the output is the exclusive-or of bits 14 and 13, and it enters bit 0 of the
register shifted left by one place without its old bit 14. -/
def PatternStep (out : Bool) (r r' : BitVec 15) : Prop :=
  out = (r.getLsbD 14 ^^ r.getLsbD 13) ∧ r'.toNat = 2 * r.toNat % 2 ^ 15 + out.toNat

/-- R25: one shift of the digest register: the old bit 7 is dropped, a 0 enters bit 0, and the register is combined by
exclusive-or with 07h where the dropped bit was 1. -/
def DigestShift (r r' : Byte) : Prop :=
  r'.toNat = if r.toNat < 2 ^ 7 then 2 * r.toNat else (2 * r.toNat - 2 ^ 8) ^^^ 0x07

/-- R25: one byte into the digest register: combined by exclusive-or, then eight shifts. -/
def DigestStep (b : Byte) (r r' : Byte) : Prop := Steps (fun _ => DigestShift) (List.range 8) (r ^^^ b) r'

/-- Check 1 of R20, on the characters as they were received (R19). -/
def FramingFault (f : Gather) : Prop := f.lateBad = true ∨ ∃ ch ∈ f.chars, ch.good = false

/-- Check 2 of R20: the structure that the kind in byte 1 calls for. -/
def StructureFault (bytes : List Byte) : Prop :=
  let kind := (byteAt bytes 1).toNat / 32
  bytes.length < 2 ∨ byteAt bytes 0 ≠ 0xC3 ∨ (kind ≠ 1 ∧ kind ≠ 2 ∧ kind ≠ 3) ∨
    (kind = 1 ∧ (bytes.length < 8 ∨ bytes.length ≠ 8 + (byteAt bytes 7).toNat + 2)) ∨
    ((kind = 2 ∨ kind = 3) ∧ bytes.length ≠ 15)

/-- Check 3 of R20: the two CRC bytes, the low one first, differ from the CRC-16 of the bytes from the kind up to them (R16). -/
def CrcFault (bytes : List Byte) : Prop :=
  let n := if (byteAt bytes 1).toNat / 32 = 1 then 7 + (byteAt bytes 7).toNat else 4
  let crc := (crc16 ((bytes.drop 1).take n)).toNat
  (byteAt bytes (n + 1)).toNat ≠ crc % 256 ∨ (byteAt bytes (n + 2)).toNat ≠ crc / 256

/-- Check 4 of R20: the values of the fields. -/
def ValuesFault (table : List PhaseEntry) (bytes : List Byte) : Prop :=
  let kind := (byteAt bytes 1).toNat / 32
  let phase := (byteAt bytes 2).toNat
  let length := (byteAt bytes 7).toNat
  let last := (byteAt bytes 6).toNat % 2 = 1
  64 ≤ phase ∨ table.length ≤ phase % 64 ∨ (kind = 3 ∧ byteAt bytes 3 ≠ 0) ∨
    (kind = 1 ∧ (length = 0 ∨ 64 < length ∨ (32 ≤ (byteAt bytes 5).toNat ∧ (byteAt bytes 5).toNat ≤ 254) ∨
      (¬ last ∧ length ≠ 64) ∨ ((byteAt bytes 6).toNat / 2 % 8 = 7 ∧ ¬ last)))

/-- Check 6 of R20: the sender does not own the announced phase. -/
def ForeignFault (table : List PhaseEntry) (bytes : List Byte) : Prop :=
  table[(byteAt bytes 2).toNat % 64]?.map (fun e => e.owner.val) ≠ some ((byteAt bytes 1).toNat % 32)

/-- R18: the pattern characters of a received frame are compared, whatever its outcome: it has 15 characters, the lead, and a FILL
or COLD kind, its first seven characters have no framing error, and the CRC agrees. -/
def PatternCompared (f : Gather) : Prop :=
  let x := f.chars.map RxChar.data
  f.chars.length = 15 ∧ byteAt x 0 = 0xC3 ∧ ((byteAt x 1).toNat / 32 = 2 ∨ (byteAt x 1).toNat / 32 = 3) ∧
    (∀ ch ∈ f.chars.take 7, ch.good = true) ∧ ¬ CrcFault x

/-- R18: what one pattern character adds to the pattern error count: the bits in which it differs from its pattern byte, or 8 with
a framing error. -/
def patternAdds (ch : RxChar) (b : Byte) : Nat := if ch.good = true then (lineBits (ch.data ^^^ b)).count true else 8

/-- The outcome of R20: the first fault met as the six checks are made in order, or clean. -/
def OutcomeByChecks (table : List PhaseEntry) (digest : Byte) (f : Gather) (outcome : FrameOutcome) : Prop :=
  let x := f.chars.map RxChar.data
  match outcome with
  | .framing => FramingFault f
  | .format => ¬ FramingFault f ∧ (StructureFault x ∨ (¬ CrcFault x ∧ ValuesFault table x))
  | .crc => ¬ FramingFault f ∧ ¬ StructureFault x ∧ CrcFault x
  | .digest => ¬ FramingFault f ∧ ¬ StructureFault x ∧ ¬ CrcFault x ∧ ¬ ValuesFault table x ∧ byteAt x 4 ≠ digest
  | .foreign => ¬ FramingFault f ∧ ¬ StructureFault x ∧ ¬ CrcFault x ∧ ¬ ValuesFault table x ∧ byteAt x 4 = digest ∧
      ForeignFault table x
  | .clean => ¬ FramingFault f ∧ ¬ StructureFault x ∧ ¬ CrcFault x ∧ ¬ ValuesFault table x ∧ byteAt x 4 = digest ∧
      ¬ ForeignFault table x

/-- The raise that the table of R157 gives a frame: its selection, its outcome, and its pattern error count where the pattern was
compared. -/
def counted (selection : CounterSelection) (outcome : FrameOutcome) (e : Option Nat) : Nat :=
  match selection with
  | .framing => if outcome = .framing then 1 else 0
  | .crc => if outcome = .crc then 1 else 0
  | .pattern => match e with
    | some n => n
    | none => 0
  | .framingCrc => if outcome = .framing ∨ outcome = .crc then 1 else 0

/-- A frame of another station ends here, after its first start bit, with this outcome of the check order. -/
structure EndsWith (f : Gather) (outcome : FrameOutcome) (s : State) : Prop where
  frame : s.fru.frame = some f
  begun : f.begun = true
  other : f.own = false
  free : LineFree s
  outcome : checkFrame s.ctr.table s.ctr.digest f = outcome

/-- The current phase is not the last one of the cycle, so its end is no cycle boundary (R31). -/
def MidCycle (s : State) : Prop := s.ctr.aligned = true ∧ s.ctr.p.val + 1 < s.ctr.table.length

/-- A clean frame ends in the phase and cycle it announces, inside a cycle, in ACTIVE or SILENT. -/
structure InStep (f : Gather) (s : State) : Prop where
  clean : EndsWith f .clean s
  mid : MidCycle s
  phase : phaseOf f.bytes = s.ctr.p
  cycle : cycleOf f.bytes = s.ctr.c
  station : s.stc.station = .active ∨ s.stc.station = .silent

/-- The Receive Unit takes a clean frame that acquires no alignment (R106). -/
abbrev Taken (f : Gather) (s : State) : Prop :=
  kindOf f.bytes = some .data ∧ f.alignedAtStart = true ∧ (s.stc.station = .active ∨ s.stc.station = .silent) ∧
    ((destinationOf f.bytes).toNat = s.cfg.ownAddress.val ∨ destinationOf f.bytes = 0xFF)

/-- A clean DATA frame that the Receive Unit takes (R106) ends in step. -/
structure TakenInStep (f : Gather) (s : State) : Prop where
  inStep : InStep f s
  data : kindOf f.bytes = some .data
  aligned : f.alignedAtStart = true
  destination : (destinationOf f.bytes).toNat = s.cfg.ownAddress.val ∨ destinationOf f.bytes = 0xFF

/-- The phase that follows is one of the station's own, and it is offered to the station (R28). -/
def OffersNext (s : State) : Prop :=
  (s.ctr.table[s.ctr.p.val + 1]?.map PhaseEntry.owner) = some s.cfg.ownAddress ∧ s.stc.station = .active ∧ s.ctr.hold = false

/-- The outcome of a frame is a fault of this kind that the Fault Unit passes on to the Station Controller (R149). -/
abbrev Stops (k : FaultKind) (s : State) : Prop := hasKind s.cfg.masks k = false ∧ hasKind s.cfg.severities k = true

/-- The record of address `a` after the notices of a frame with this outcome, from its record before. A clean frame gives its sender
heard credit and clears the mismatch flag, and a FILL or COLD frame also measures it, a captured change of quality flagged;
DIGEST sets the mismatch flag and FOREIGN clears it; every other record stands (R134, R140 to R142). -/
def notedPeer (f : Gather) (outcome : FrameOutcome) (capture : CaptureMode) (a : Addr) (r : Peer) : Peer :=
  if a ≠ senderOf f.bytes then r
  else
    match outcome with
    | .framing | .format | .crc => r
    | .digest => { r with mismatch := true }
    | .foreign => { r with mismatch := false }
    | .clean =>
      match patternErrors f with
      | none => { r with mismatch := false, lastHeard := some (cycleOf f.bytes) }
      | some e =>
        let q : Quality := if e ≤ 6 then .good else .poor
        { r with mismatch := false, lastHeard := some (cycleOf f.bytes), lastErrors := some e, quality := q,
                 qualityChanged := r.qualityChanged || (decide (r.quality ≠ q) && (capture == .any || q == .poor)) }

/-- The Fault Unit after one occurrence, from its state before (R149, R151). -/
def recorded (masks : KindSet) (o : FirstFault) (f : Flt) : Flt :=
  if hasKind masks o.kind then f
  else
    { f with flags := addKind f.flags o.kind
             first := match f.first with
               | some r => some r
               | none => some o }

/-- What the end of a phase carries: the cycle the phase belongs to, whether that cycle was followed whole (R33), HOLD after the
frame, the raise of the line error counter, the sender credited, the frame's own fault, the frame the Receive Unit takes, and the
Station Controller after any alignment. -/
structure Ending where
  cycle : Cycle
  whole : Bool
  hold : Bool
  errors : Nat
  heard : Option Addr
  fault : Option FirstFault
  took : Option Gather
  stc : Stc

/-- An ending with neither a frame of another station nor an alignment. -/
def Ending.plain (s : State) : Ending := ⟨s.ctr.c, s.ctr.whole, s.ctr.hold, 0, none, none, none, s.stc⟩

/-- The Station Controller on alignment acquired: LISTEN and COLD go to ACTIVE, SILENT stays (R34, R56). -/
def acquiredStc (x : Stc) : Stc :=
  if x.station = .silent then x else { x with station := .active, coldAttempts := 0, stationCause := true }

/-- The Cycle Tracker stands in phase L - 1. -/
def LastPhase (s : State) : Prop := s.ctr.aligned = true ∧ s.ctr.p.val + 1 = s.ctr.table.length

/-- The command ends phase `n` in this state, with this ending: a skip expiry (R29), or the FALSE_START it waited for; the frame
end of an own frame, with or without its COLD alignment (R35); of a frame with a fault (R21); or of a clean frame in step,
realigning (R38) or acquiring alignment (R34), which ends the phase it announces. -/
inductive PhaseEnd (s : State) : Instr → Phase → Ending → Prop
  | skip (ct : Nat) (aligned : s.ctr.aligned = true) (timer : s.ctr.skip = .running ct) (driver : s.lif.tx = none)
      (receiver : s.lif.receiver ≠ .character false) : PhaseEnd s .skipExpiry s.ctr.p (Ending.plain s)
  | sample (aligned : s.ctr.aligned = true) (timer : s.ctr.skip = .awaitingSample) (driver : s.lif.tx = none)
      (receiver : s.lif.receiver = .character false) (noFrame : s.lif.frameEndDue = false) :
      PhaseEnd s .falseStart s.ctr.p (Ending.plain s)
  | own (f : Gather) (aligned : s.ctr.aligned = true) (frame : s.fru.frame = some f) (begun : f.begun = true)
      (isOwn : f.own = true) (free : LineFree s) (settled : s.ctr.coldAlignPending = false) :
      PhaseEnd s .frameEnd s.ctr.p (Ending.plain s)
  | cold (f : Gather) (p : Phase) (frame : s.fru.frame = some f) (begun : f.begun = true) (isOwn : f.own = true)
      (free : LineFree s) (pending : s.ctr.coldAlignPending = true) (station : s.stc.station = .cold)
      (owns : (s.ctr.table[p.val]?.map PhaseEntry.owner) = some s.cfg.ownAddress)
      (lowest : ∀ q < p, (s.ctr.table[q.val]?.map PhaseEntry.owner) ≠ some s.cfg.ownAddress) :
      PhaseEnd s .frameEnd p ⟨0, false, false, 0, none, none, none, acquiredStc s.stc⟩
  | fault (f : Gather) (outcome : FrameOutcome) (kind : FaultKind) (ends : EndsWith f outcome s)
      (isFault : outcome.kind = some kind) (aligned : s.ctr.aligned = true) (station : s.stc.station ≠ .cold) :
      PhaseEnd s .frameEnd s.ctr.p
        ⟨s.ctr.c, s.ctr.whole, s.ctr.hold, counted s.cfg.selection outcome (patternErrors f), none,
          some ⟨kind, faultSender f, none, s.ctr.p, s.ctr.c, f.bytes.take 8⟩, none, s.stc⟩
  | inStep (f : Gather) (ends : EndsWith f .clean s) (aligned : s.ctr.aligned = true) (phase : phaseOf f.bytes = s.ctr.p)
      (cycle : cycleOf f.bytes = s.ctr.c) :
      PhaseEnd s .frameEnd s.ctr.p
        ⟨s.ctr.c, s.ctr.whole, false, counted s.cfg.selection .clean (patternErrors f), some (senderOf f.bytes), none,
          if Taken f s then some f else none, s.stc⟩
  | realigned (f : Gather) (ends : EndsWith f .clean s) (aligned : s.ctr.aligned = true)
      (differs : phaseOf f.bytes ≠ s.ctr.p ∨ cycleOf f.bytes ≠ s.ctr.c) :
      PhaseEnd s .frameEnd (phaseOf f.bytes)
        ⟨cycleOf f.bytes, false, false, counted s.cfg.selection .clean (patternErrors f), some (senderOf f.bytes),
          some ⟨.slip, some (senderOf f.bytes), none, s.ctr.p, s.ctr.c, f.bytes.take 8⟩,
          if Taken f s then some f else none, s.stc⟩
  | acquired (f : Gather) (ends : EndsWith f .clean s) (unaligned : s.ctr.aligned = false)
      (station : s.stc.station = .listen ∨ s.stc.station = .cold ∨ s.stc.station = .silent) :
      PhaseEnd s .frameEnd (phaseOf f.bytes)
        ⟨cycleOf f.bytes, false, false, counted s.cfg.selection .clean (patternErrors f), some (senderOf f.bytes), none,
          none, acquiredStc s.stc⟩

/-- The command ends phase L - 1 of a cycle in this state, which is a cycle boundary (R31). -/
def BoundaryEnd (s : State) (i : Instr) (w : Ending) : Prop :=
  ∃ n : Phase, PhaseEnd s i n w ∧ n.val + 1 = s.ctr.table.length

/-- The boundary between two states moves a sender's record into ABSENT (R139). -/
abbrev Lost (s t : State) (a : Addr) : Prop :=
  s.pmn.peers[a].presence ≠ .absent ∧ t.pmn.peers[a].presence = .absent

/-- An entry reaches the age limit at a boundary (R116). -/
abbrev AgesOut (s : State) (e : Entry) : Prop := e.age + 1 = s.cfg.ageLimit

/-- An entry is among the first, by sender and class, of the entries that leave for one reason (R116, R118, R139). -/
def FirstOf (leaves : Entry → Prop) (s : State) (e : Entry) : Prop :=
  leaves e ∧ ∀ x ∈ s.rxu.table, leaves x → e.rank ≤ x.rank

/-! ### A taken frame at the Receive Unit -/

/-- An entry stands for the key of a frame, its sender and its class (R107). -/
abbrev KeyOf (f : Gather) (e : Entry) : Prop := e.sender = senderOf f.bytes ∧ e.cls = classOf f.bytes

/-- The Receive Unit without the entry of a frame's key, whose pool blocks return (R108). -/
def withoutKey (f : Gather) (x : Rxu) : Rxu :=
  { x with table := x.table.filter fun e => ¬ KeyOf f e
           free := x.free + entryBlocks (x.table.filter fun e => KeyOf f e) }

/-- There is a free pool block, and a free place in the delivery queue (R109, R115). -/
def RoomToDeliver (x : Rxu) : Prop := 1 ≤ x.free ∧ x.delivery.length < 16

/-- R109 to R115: what a taken frame with this payload does at the Receive Unit, and the kinds of fault it raises, in their
order. The table keeps no order among its entries (R110). -/
inductive Handled (f : Gather) (payload : List Byte) : Rxu → Rxu → List FaultKind → Prop
  | whole (x : Rxu) (index : indexOf f.bytes = 0) (last : lastOf f.bytes = true) (fresh : ∀ e ∈ x.table, ¬ KeyOf f e)
      (room : RoomToDeliver x) :
      Handled f payload x
        { x with free := x.free - 1, quiet := 0,
                 delivery := x.delivery ++ [⟨senderOf f.bytes, classOf f.bytes, destinationOf f.bytes == 0xFF,
                   lengthOf f.bytes, [payload], cycleOf f.bytes⟩] } []
  | wholeNoSpace (x : Rxu) (index : indexOf f.bytes = 0) (last : lastOf f.bytes = true) (fresh : ∀ e ∈ x.table, ¬ KeyOf f e)
      (full : ¬ RoomToDeliver x) : Handled f payload x x [.noSpace]
  | first (x : Rxu) (table : List Entry) (index : indexOf f.bytes = 0) (last : lastOf f.bytes = false)
      (fresh : ∀ e ∈ x.table, ¬ KeyOf f e) (place : x.table.length < 8) (room : 1 ≤ x.free)
      (made : table.Perm (⟨senderOf f.bytes, classOf f.bytes, numberOf f.bytes, destinationOf f.bytes == 0xFF, 1,
        [payload], 0⟩ :: x.table)) :
      Handled f payload x { x with free := x.free - 1, table := table } []
  | firstNoSpace (x : Rxu) (index : indexOf f.bytes = 0) (last : lastOf f.bytes = false) (fresh : ∀ e ∈ x.table, ¬ KeyOf f e)
      (full : ¬ (x.table.length < 8 ∧ 1 ≤ x.free)) : Handled f payload x x [.noSpace]
  | replaces (x y : Rxu) (kinds : List FaultKind) (e : Entry) (index : indexOf f.bytes = 0) (stands : e ∈ x.table)
      (key : KeyOf f e) (rest : Handled f payload (withoutKey f x) y kinds) :
      Handled f payload x y (.sequence :: kinds)
  | orphan (x : Rxu) (index : 1 ≤ indexOf f.bytes) (fresh : ∀ e ∈ x.table, ¬ KeyOf f e) : Handled f payload x x []
  | contradicts (x : Rxu) (e : Entry) (index : 1 ≤ indexOf f.bytes) (stands : e ∈ x.table) (key : KeyOf f e)
      (differs : e.next ≠ indexOf f.bytes ∨ e.number ≠ numberOf f.bytes) :
      Handled f payload x (withoutKey f x) [.sequence]
  | continues (x : Rxu) (e : Entry) (table : List Entry) (index : 1 ≤ indexOf f.bytes) (stands : e ∈ x.table) (key : KeyOf f e)
      (next : e.next = indexOf f.bytes) (number : e.number = numberOf f.bytes) (last : lastOf f.bytes = false)
      (room : 1 ≤ x.free)
      (advanced : table.Perm ({ e with next := e.next + 1, blocks := e.blocks ++ [payload], age := 0 } ::
        (withoutKey f x).table)) :
      Handled f payload x { x with free := x.free - 1, table := table } []
  | completes (x : Rxu) (e : Entry) (index : 1 ≤ indexOf f.bytes) (stands : e ∈ x.table) (key : KeyOf f e)
      (next : e.next = indexOf f.bytes) (number : e.number = numberOf f.bytes) (last : lastOf f.bytes = true)
      (room : RoomToDeliver x) :
      Handled f payload x
        { x with free := x.free - 1, quiet := 0, table := (withoutKey f x).table,
                 delivery := x.delivery ++ [⟨e.sender, e.cls, e.broadcast, 64 * e.next + lengthOf f.bytes,
                   e.blocks ++ [payload], cycleOf f.bytes⟩] } []
  | continuesNoSpace (x : Rxu) (e : Entry) (index : 1 ≤ indexOf f.bytes) (stands : e ∈ x.table) (key : KeyOf f e)
      (next : e.next = indexOf f.bytes) (number : e.number = numberOf f.bytes)
      (full : if lastOf f.bytes = true then ¬ RoomToDeliver x else x.free = 0) :
      Handled f payload x (withoutKey f x) [.noSpace]

/-- A SEQUENCE or NO_SPACE of a taken frame, with a given p and c (R120, R152, R153). -/
def frameFault (f : Gather) (p : Phase) (c : Cycle) (kind : FaultKind) : FirstFault :=
  ⟨kind, some (senderOf f.bytes), none, p, c, f.bytes.take 8⟩

/-- The Fault Unit after occurrences in their order (R149 to R151). -/
def recordedAll (masks : KindSet) (os : List FirstFault) (f : Flt) : Flt := os.foldl (fun f o => recorded masks o f) f

/-! ### A cycle boundary at the Receive Unit -/

/-- An event of one phase end whose order the manual leaves open: the frame's own fault, the taken frame, the aging and the
notices of peer loss (R117, R118, R125, R150; log 6). -/
inductive BoundaryEvent where
  | fault | frame | aging | loss
  deriving DecidableEq, Repr

/-- The quiet counter and the quiet flag over a boundary (R124). A clear flag with the counter at Q stays clear: the model's
choice (log 28). -/
def quietAfter (limit : Nat) (x : Rxu) : Nat × Bool :=
  if x.delivery ≠ [] ∧ x.quiet < limit then (x.quiet + 1, x.quietFlag || decide (x.quiet + 1 = limit))
  else (x.quiet, x.quietFlag)

/-- The entries that meet a condition leave, and their pool blocks return (R116, R118). -/
def withoutEntries (gone : Entry → Prop) [DecidablePred gone] (x : Rxu) : Rxu :=
  { x with table := x.table.filter fun e => ¬ gone e, free := x.free + entryBlocks (x.table.filter fun e => gone e) }

/-- The AGED of an entry that leaves at the end of cycle `c` (R120, R152). -/
def agedFault (c : Cycle) (e : Entry) : FirstFault := ⟨.aged, some e.sender, some e.cls, 0, c + 1, []⟩

/-- One event of a boundary at the Receive Unit, with the occurrences raised so far (R116 to R118, R120, R124, R150, R152). The
boundary runs from `s` to `t`, and the frame's payload is that of the segment buffer before it. A SEQUENCE or NO_SPACE of the
frame names phase L - 1 of the cycle just ended; the model keeps the table by ascending sender and class (log 16). -/
def BoundaryStep (w : Ending) (s t : State) (event : BoundaryEvent) (x y : Rxu × List FirstFault) : Prop :=
  match event with
  | .fault => y = (x.1, x.2 ++ w.fault.toList)
  | .frame =>
    match w.took with
    | none => y = x
    | some f => ∃ kinds, Handled f (s.rxu.segBuf.take (lengthOf f.bytes)) x.1 y.1 kinds ∧
        (y.1.table.map Entry.rank).Pairwise (· < ·) ∧
        y.2 = x.2 ++ kinds.map (frameFault f (Fin.ofNat 64 (s.ctr.table.length - 1)) w.cycle)
  | .aging =>
    let kept := withoutEntries (AgesOut s) x.1
    let (quiet, flag) := quietAfter s.cfg.quietLimit x.1
    y = ({ kept with table := kept.table.map fun e => { e with age := e.age + 1 }, quiet := quiet, quietFlag := flag },
      x.2 ++ (x.1.table.filter fun e => AgesOut s e).map (agedFault w.cycle))
  | .loss =>
    y = (withoutEntries (fun e => Lost s t e.sender) x.1,
      x.2 ++ (x.1.table.filter fun e => Lost s t e.sender).map (agedFault w.cycle))

/-- The contexts as an exit from ACTIVE leaves them (R101 to R103). -/
def contextsReturned (x : Txs) : Txs :=
  { x with current := none, stack := [], inFlight := none,
           queues := x.queues.map fun q => q.map fun m => { m with state := .queued } }

/-- The phase after phase `n`, inside a cycle (R31). -/
abbrev phaseAfter (n : Phase) : Phase := Fin.ofNat 64 (n.val + 1)

/-- Phase `q` is not offered to a station in this state: it is no own phase, or the station is not in ACTIVE (R28). -/
def NotOffered (q : Phase) (station : Station) (s : State) : Prop :=
  (s.ctr.table[q.val]?.map PhaseEntry.owner) ≠ some s.cfg.ownAddress ∨ station ≠ .active

/-- A STOPPING report reached the Station Controller, which stood as `x`, with the driver OFF: a station in SILENT stays as it is,
and any other enters SILENT with STATION pending and every context returned to QUEUED (R58, R65, R102). -/
def StoppedFrom (x : Stc) (s t : State) : Prop :=
  (x.station = .silent → t.stc = x ∧ t.txs = s.txs) ∧
    (x.station ≠ .silent →
      t.stc = { x with station := .silent, stationCause := true, pendingExit := t.stc.pendingExit } ∧
        t.txs = contextsReturned s.txs)

/-- The Station Controller, the Transmit Scheduler and the Line Interface after a frame end with which phase `q` begins. Where a
STOPPING fault of the frame `stops` the station, the phase is not offered. Otherwise the station stands, and with the phase not
offered the other two stand as well (R28, R58, R82, R87). -/
def StationAfter (stops : Prop) (q : Phase) (s t : State) : Prop :=
  (stops → StoppedFrom s.stc s t ∧ t.lif = s.lif) ∧
    (¬ stops → t.stc = s.stc ∧ (NotOffered q s.stc.station s → t.lif = s.lif ∧ t.txs = s.txs))

/-- The Line Interface stands over a phase end by this command, the receiver brought to IDLE by a FALSE_START and the echo failure
count 0 after an alignment that leads to ACTIVE apart (R4, R10, R56). -/
def LineStands (i : Instr) (w : Ending) (s t : State) : Prop :=
  t.lif = { s.lif with
    receiver := if i = .falseStart then .idle else s.lif.receiver
    echoFailures := if w.stc.station = s.stc.station then s.lif.echoFailures else 0 }

/-- A change of state that waited for the end of a frame, made from `u` (R45, R59, R62, R65, R102, R129). -/
def Entered (e : Exit) (u t : State) : Prop :=
  match e with
  | .toSilent =>
    t.stc = { u.stc with station := .silent, stationCause := true, pendingExit := none } ∧
      t.ctr = { u.ctr with hold := false, coldWait := none, coldAlignPending := false } ∧
      t.txs = contextsReturned u.txs ∧ SameOutside [.stc, .ctr, .txs] u t
  | .toConfig =>
    t.stc = { u.stc with station := .config, pendingExit := none } ∧
      t.lif = { u.lif with tx := none, receiver := .off, frameEndDue := false } ∧ t.fru = ⟨none, false, false⟩ ∧
      t.ctr = { State.reset.ctr with table := u.ctr.table, digest := u.ctr.digest } ∧ t.txs = contextsReturned u.txs ∧
      t.rxu = { u.rxu with segBuf := [], table := [],
                           free := u.rxu.free + (u.rxu.table.map fun x => x.blocks.length).sum } ∧
      SameOutside [.lif, .stc, .ctr, .txs, .fru, .rxu] u t

/-- The same state with no change of state and no soft reset waiting for the cut. -/
def withoutExit (s : State) : State :=
  { s with stc := { s.stc with pendingExit := none
                               softReset := if s.stc.softReset = .waiting then .none else s.stc.softReset } }

/-- A soft reset waits in this state. -/
def resetWaiting (s : State) : State := { s with stc := { s.stc with softReset := .waiting } }

/-! ### The line pins -/

/-- LTX shows one character in the bit times from `n` on: the start bit at 0, the data bits from bit 0 up, the stop bit at 1
(R2). -/
def ShowsCharacter (s : State) (n : Nat) (b : Byte) : Prop :=
  ltx s n = false ∧ (∀ j : Fin 8, ltx s (n + 1 + j.val) = b.getLsbD j.val) ∧ ltx s (n + 9) = true

/-! ### Selection at an own phase -/

/-- A candidate that the unreachable check of R89 finds unreachable. -/
def Unreachable (m : Message) (s : State) : Prop :=
  s.cfg.unreachable = .discard ∧ m.state = .queued ∧ m.destination.toNat ≤ 31 ∧
    s.pmn.peers[Fin.ofNat 32 m.destination.toNat].presence = .absent

/-- The number of a message that is selected: its own, or the next of its class (R93). -/
def numberFor (m : Message) (k : Cls) (s : State) : MsgNo := m.number.getD s.txs.numbers[k]

/-- The next segment of a message is its last. -/
def lastNext (m : Message) : Bool := m.sent + 1 == segmentCount m.length

/-- The contexts settled for a candidate `m`, the head of class `k` (R92 to R94): kept, popped, started, or pushed and
started. -/
structure Settled (m : Message) (k : Cls) (s t : State) : Prop where
  current : t.txs.current = some m.tag
  stack : t.txs.stack =
    if s.txs.current = some m.tag then s.txs.stack
    else if s.txs.stack.head? = some m.tag ∧ s.txs.current = none then s.txs.stack.tail
    else s.txs.current.toList ++ s.txs.stack
  queue : t.txs.queues[k] = { m with state := .started (numberFor m k s) m.sent } :: s.txs.queues[k].tail
  number : t.txs.numbers[k] = if m.number = none then s.txs.numbers[k] + 1 else s.txs.numbers[k]
  others : ∀ j : Cls, j ≠ k → t.txs.queues[j] = s.txs.queues[j] ∧ t.txs.numbers[j] = s.txs.numbers[j]
  rest : t.txs.free = s.txs.free ∧ t.txs.completions = s.txs.completions ∧ t.txs.staging = s.txs.staging

/-- The level of SUB_REQ in a mode, from its level before and the free pool blocks (R179). -/
def subLevel (mode : LineMode) (before : Bool) (free : Nat) : Bool :=
  match mode with
  | .mode0 => decide (8 ≤ free)
  | .mode1 => decide (32 ≤ free) || (before && decide (8 ≤ free))

/-- A message discarded as unreachable: out of its queue with its pool blocks, and an UNREACHABLE record at the tail of the
completion queue; SUB_REQ follows the free pool blocks (R79, R90, R179). -/
def withoutMessage (m : Message) (s : State) : State :=
  { s with
    txs := { s.txs with
      queues := s.txs.queues.map fun q => q.filter fun x => x.tag != m.tag
      free := s.txs.free + m.blocks.length
      completions := s.txs.completions ++ [⟨m.tag, m.cls, .unreachable⟩] }
    lpt := { s.lpt with subReq := subLevel s.cfg.subMode s.lpt.subReq (s.txs.free + m.blocks.length) } }

/-- A command sends a FILL frame of the phase and cycle of `ctr` with the pending insertions, or withholds it where the receiver
is not in IDLE (R6, R15, R22, R98). -/
def SendsFill (i : Instr) (ctr : Ctr) (s : State) : Prop :=
  (s.lif.receiver = .idle → exec i s = .next { s with
    ctr := ctr
    lif := { s.lif with tx := some ⟨shortFrame .fill s.cfg.ownAddress ctr.p ctr.c ctr.digest
      ⟨s.fru.testPattern, s.fru.testCrc⟩, 0, false⟩ }
    fru := ⟨some ⟨[], true, false, false, false⟩, false, false⟩
    txs := { s.txs with inFlight := some .fill } }) ∧
  (s.lif.receiver ≠ .idle → exec i s = .next { s with ctr := ctr })

/-- The own phase `e` follows at a skip expiry inside a cycle, and is offered to the station (R28, R29, R31). -/
structure OffersOwn (e : PhaseEntry) (s : State) : Prop where
  mid : MidCycle s
  small : s.ctr.p.val < 63
  timer : ∃ ct, s.ctr.skip = .running ct
  driver : s.lif.tx = none
  receiver : s.lif.receiver ≠ .character false
  frame : s.fru.frame = none
  station : s.stc.station = .active
  hold : s.ctr.hold = false
  entry : s.ctr.table[s.ctr.p.val + 1]? = some e
  own : e.owner = s.cfg.ownAddress

/-- The phase and the cycle that begin when phase `n` ends (R31). -/
def beginsAfter (n : Phase) (w : Ending) (s : State) : Phase × Cycle :=
  if n.val + 1 = s.ctr.table.length then (0, w.cycle + 1) else (Fin.ofNat 64 (n.val + 1), w.cycle)

/-- The command ends phase `n`, inside a cycle or at its boundary, and the phase that begins is the own phase `e`, for a station
that is in ACTIVE with HOLD clear unless a fault of this phase end stops it (R28, R31, R43). -/
structure BeginsOwn (i : Instr) (n : Phase) (w : Ending) (e : PhaseEntry) (s : State) : Prop where
  ends : PhaseEnd s i n w
  inTable : n.val + 1 ≤ s.ctr.table.length
  tableBound : s.ctr.table.length ≤ 64
  entry : s.ctr.table[(beginsAfter n w s).1.val]? = some e
  own : e.owner = s.cfg.ownAddress
  station : w.stc.station = .active
  hold : w.hold = false ∨ n.val + 1 = s.ctr.table.length
  frame : i ≠ .frameEnd → ∀ g, s.fru.frame = some g → g.begun = false

/-- The receiver is in IDLE when the phase begins: as it stands, or brought there by the FALSE_START. -/
def IdleAtStart (i : Instr) (s : State) : Prop := s.lif.receiver = .idle ∨ i = .falseStart

/-- The FILL frame of a phase and cycle as it is started, with the pending insertions used up (R6, R15, R22, R97). -/
structure FillStarted (p : Phase) (c : Cycle) (s t : State) : Prop where
  tx : t.lif.tx = some ⟨shortFrame .fill s.cfg.ownAddress p c s.ctr.digest ⟨s.fru.testPattern, s.fru.testCrc⟩, 0, false⟩
  fru : t.fru = ⟨some ⟨[], true, false, false, false⟩, false, false⟩
  inFlight : t.txs.inFlight = some .fill

/-- The DATA frame of the next segment of `m` as it is started (R6, R13, R15, R22, R97). -/
structure DataStarted (m : Message) (k : Cls) (p : Phase) (c : Cycle) (s t : State) : Prop where
  tx : t.lif.tx = some ⟨dataFrame s.cfg.ownAddress p c s.ctr.digest
    ⟨m.destination, k, numberFor m k s, m.sent, lastNext m, m.blocks.getD m.sent []⟩ ⟨false, s.fru.testCrc⟩, 0, false⟩
  fru : t.fru = ⟨some ⟨[], true, false, false, false⟩, s.fru.testPattern, false⟩
  inFlight : t.txs.inFlight = some (.data m.tag m.sent (lastNext m))

/-- The frame is withheld: the driver stays OFF and nothing is built (R6, R98). -/
structure Withheld (s t : State) : Prop where
  tx : t.lif.tx = none
  fru : t.fru = { s.fru with frame := none }
  inFlight : t.txs.inFlight = none

/-- The Cycle Tracker after the advance inside a cycle (R28, R31). -/
def advancedCtr (s : State) : Ctr := { s.ctr with p := Fin.ofNat 64 (s.ctr.p.val + 1), skip := .running 2 }

/-- The level of DLV_REQ in a mode, from its level before, the trigger, the record count and the quiet flag (R178). -/
def dlvLevel (mode : LineMode) (before : Bool) (trigger records : Nat) (quietFlag : Bool) : Bool :=
  match mode with
  | .mode0 => decide (1 ≤ records)
  | .mode1 => decide (trigger ≤ records) || quietFlag || (before && decide (1 ≤ records))

/-- The argument bytes of a SETUP lie in range (R171; 10, SETUP). -/
structure SetupRanges (args : List Byte) : Prop where
  ownAddress : arg args 0 ≤ 31
  divisor : 256 * arg args 1 + arg args 2 ≠ 0
  presence : arg args 3 ≤ 1
  unreachable : arg args 4 ≤ 1
  classMap : ∀ i : Fin 8, arg args (5 + i.val) ≤ 3
  masks : arg args 13 ≤ 3
  severities : arg args 15 ≤ 3
  selection : arg args 17 ≤ 3
  reportMode : arg args 18 ≤ 1
  reportPeriod : 1 ≤ arg args 19
  ageLimit : 1 ≤ arg args 20 ∧ arg args 20 ≤ 15
  trigger : arg args 21 = 1 ∨ arg args 21 = 4 ∨ arg args 21 = 8 ∨ arg args 21 = 14
  quietLimit : 1 ≤ arg args 22 ∧ arg args 22 ≤ 15
  presenceCapture : arg args 23 ≤ 1
  qualityCapture : arg args 24 ≤ 1
  dlvMode : arg args 25 ≤ 1
  subMode : arg args 26 ≤ 1
  intDrive : arg args 27 ≤ 2

/-- The items hold what the argument bytes of a SETUP carry (10, SETUP). -/
structure SetupCarries (args : List Byte) (x : Items) : Prop where
  ownAddress : x.ownAddress.val = arg args 0
  divisor : x.divisor.toNat = 256 * arg args 1 + arg args 2
  presence : x.presence = if arg args 3 = 0 then .tolerant else .strict
  unreachable : x.unreachable = if arg args 4 = 0 then .keep else .discard
  classMap : ∀ i : Fin 8, x.classMap[i].val = arg args (5 + i.val)
  masks : x.masks.toNat = 256 * arg args 13 + arg args 14
  severities : x.severities.toNat = 256 * arg args 15 + arg args 16
  selection : x.selection =
    if arg args 17 = 0 then .framing else if arg args 17 = 1 then .crc else if arg args 17 = 2 then .pattern else .framingCrc
  reportMode : x.reportMode = if arg args 18 = 0 then .onDemand else .periodic
  reportPeriod : x.reportPeriod = arg args 19
  ageLimit : x.ageLimit = arg args 20
  trigger : x.trigger = arg args 21
  quietLimit : x.quietLimit = arg args 22
  presenceCapture : x.presenceCapture = if arg args 23 = 0 then .any else .loss
  qualityCapture : x.qualityCapture = if arg args 24 = 0 then .any else .loss
  dlvMode : x.dlvMode = if arg args 25 = 0 then .mode0 else .mode1
  subMode : x.subMode = if arg args 26 = 0 then .mode0 else .mode1
  intDrive : x.intDrive =
    if arg args 27 = 0 then .openDrainLow else if arg args 27 = 1 then .pushPullLow else .pushPullHigh

/-- The commands of a list, one after another. -/
def execAll : List Instr → State → Host.Outcome State Fault Refusal
  | [], s => .next s
  | i :: is, s =>
    match exec i s with
    | .next t => execAll is t
    | o => o

end Sys2Proof.Machine
end

