-- ==== Sys2Proof/WellFormed.lean ====
section
/-! DEFINITION. Which commands are well formed: the argument bytes agree with the count the command calls for, and an
unknown code is unknown. -/

namespace Sys2Proof

/-- A command that can be sent as it stands (R167, R170). The other commands carry operands that are legal at every value. -/
def Instr.wellFormed : Instr → Bool
  | .setup args => args.length == 28
  | .table length entries => entries.length == length.toNat
  | .submit _ _ _ length payload => payload.length == length.toNat
  | .unknownCommand code => (Command.ofCode code).isNone
  | .fullReset _ | .selNFall | .transactionAbandoned | .join | .leave | .rejoin | .restart | .softReset | .enable _
  | .test _ | .withdraw _ | .completions _ | .fetch | .status | .peers _ _ | .faults | .faultClear _ | .counter
  | .snapshot | .receiverSettled | .startBitSeen | .characterReceived _ _ | .frameEnd | .entryAged _ _
  | .quietLimitReached | .periodicTransfer | .echoClean | .echoFailure | .cut | .skipExpiry | .coldStartWaitExpiry
  | .fallingEdge | .falseStart | .breakEnded | .portByteCompleted _ | .transactionEnd => true

end Sys2Proof
end

