-- ==== Sys2Proof/Certificates/Slice0/Obligations.lean ====
section
/-! DEFINITION. The statements for the provers, family by family. -/

open Sys2Proof Sys2Proof.Machine

/-! ### The queue and the resets -/

/-- A step runs the front command on the state with the rest of the queue, and on an empty queue the block idles. The
idling is the model's choice (log 1). -/
def Obligations.StepRunsFront : Prop :=
  (∀ (c : Instr) (rest : List Instr) (s : State), s.pending = c :: rest → step s = exec c (s.withPending rest)) ∧
    ∀ s : State, s.pending = [] → step s = .next s

/-- Every command has a next state in every state, and leaves the queue of waiting commands as it stands; that it has one also
where its event cannot occur is the model's choice (log 2). With no soft reset waiting, an event of the line or of a timer
leaves alone the configuration, the phase table and its digest, the reset input, the staging area, the armed soft reset, and
everything of the Local Port but the levels of its two request lines (R24, R46, R47, R63, R67, R168, R171). -/
def Obligations.EveryCommandGoesOn : Prop :=
  ∀ (c : Instr) (s : State), ∃ t, exec c s = .next t ∧ t.pending = s.pending ∧
    (LineEvent c → s.stc.softReset ≠ .waiting →
      t.cfg = s.cfg ∧ t.rstLow = s.rstLow ∧ t.ctr.table = s.ctr.table ∧ t.ctr.digest = s.ctr.digest ∧
        t.txs.staging = s.txs.staging ∧ t.stc.softReset = s.stc.softReset ∧
        t.lpt = { s.lpt with dlvReq := t.lpt.dlvReq, subReq := t.lpt.subReq })

/-- The values after the full reset, with LDE low and LTX at 1 (tables of R46, R83, R104, R130, R147, R165, R180; R64, R10, R22,
R55). -/
def Obligations.ResetValues : Prop :=
  let s := State.reset
  (s.lif.receiver = .off ∧ s.lif.tx = none ∧ lde s = false ∧ (∀ n, ltx s n = true) ∧ s.lif.echoFailures = 0) ∧
  (s.fru.frame = none ∧ s.fru.testPattern = false ∧ s.fru.testCrc = false) ∧
  (s.ctr.table = [] ∧ s.ctr.digest = 0 ∧ s.ctr.aligned = false ∧ s.ctr.p = 0 ∧ s.ctr.c = 0 ∧ s.ctr.whole = false ∧
    s.ctr.skip = .stopped ∧ s.ctr.coldWait = none ∧ s.ctr.hold = false ∧ s.ctr.coldAlignPending = false) ∧
  (s.stc.station = .config ∧ s.stc.coldAttempts = 0 ∧ s.stc.stationCause = false ∧ s.stc.pendingExit = none ∧
    s.stc.softReset = .none) ∧
  (s.txs.staging = [] ∧ s.txs.free = 64 ∧ (∀ k : Cls, s.txs.queues[k] = [] ∧ s.txs.numbers[k] = 0) ∧
    s.txs.completions = [] ∧ s.txs.current = none ∧ s.txs.stack = [] ∧ s.txs.inFlight = none) ∧
  (s.rxu.segBuf = [] ∧ s.rxu.free = 64 ∧ s.rxu.table = [] ∧ s.rxu.delivery = [] ∧ s.rxu.quiet = 0 ∧
    s.rxu.quietFlag = false) ∧
  DerivedPeers [] 0 s.pmn ∧
  (s.flt.flags = 0 ∧ s.flt.first = none ∧ s.flt.lineErrors = 0 ∧ s.flt.liveOverflow = false ∧ s.flt.snapshot = 0 ∧
    s.flt.snapOverflow = false ∧ s.flt.reportReady = false ∧ s.flt.period = 0) ∧
  (s.lpt.state = .idle ∧ s.lpt.enables = 0 ∧ s.lpt.dlvReq = false ∧ s.lpt.subReq = true ∧ s.lpt.sdo = none ∧
    intPin s = .released) ∧
  (s.cfg.ownAddress = 0 ∧ s.cfg.divisor = 1 ∧ s.cfg.presence = .tolerant ∧ s.cfg.unreachable = .keep ∧
    (∀ p : Fin 8, s.cfg.classMap[p].val = p.val / 2) ∧ s.cfg.masks = 0 ∧ s.cfg.severities = 0 ∧
    s.cfg.selection = .framingCrc ∧ s.cfg.reportMode = .onDemand ∧ s.cfg.reportPeriod = 16 ∧ s.cfg.ageLimit = 4 ∧
    s.cfg.trigger = 1 ∧ s.cfg.quietLimit = 2 ∧ s.cfg.presenceCapture = .any ∧ s.cfg.qualityCapture = .any ∧
    s.cfg.dlvMode = .mode0 ∧ s.cfg.subMode = .mode0 ∧ s.cfg.intDrive = .openDrainLow)

/-- RST_N low holds every block at its full-reset values with the request lines inactive, INT released, LDE low and LTX at 1;
its rise leaves those values with SUB_REQ active (R64, R177 to R179). The soft reset keeps the SETUP items, the table and its
digest, the status flags and the first-fault record, and the interrupt enables, derives the peer records, and gives everything
else its reset value (R63 and the reset tables); it takes effect where it is armed with the driver OFF or waits for the cut.
That a reset that waited for the cut gives the Local Port its reset value, IDLE, also where a transaction stands open is the
model's reading of R63 and R180 (log 14).
The model's choices: a rise with RST_N already high, and a soft reset neither armed nor waiting, do nothing (logs 2, 13); the
queue of commands and the model's own counter are no part of the block (log 24). -/
def Obligations.Resets : Prop :=
  ∀ s : State,
    (∃ t, exec (.fullReset .low) s = .next t ∧
      t = { State.reset with rstLow := true, lpt := { State.reset.lpt with subReq := false },
                             freeCount := s.freeCount, pending := s.pending } ∧
      lde t = false ∧ (∀ n, ltx t n = true) ∧ intPin t = .released ∧ t.lpt.dlvReq = false) ∧
    (s.rstLow = true →
      exec (.fullReset .high) s = .next { State.reset with freeCount := s.freeCount, pending := s.pending }) ∧
    (s.rstLow = false → exec (.fullReset .high) s = .next s) ∧
    ((s.stc.softReset = .armed ∧ s.lif.tx = none) ∨ s.stc.softReset = .waiting →
      ∃ t, exec .softReset s = .next t ∧
        t.lif = State.reset.lif ∧ t.fru = State.reset.fru ∧
        t.ctr = { State.reset.ctr with table := s.ctr.table, digest := s.ctr.digest } ∧
        t.stc = State.reset.stc ∧ t.txs = State.reset.txs ∧ t.rxu = State.reset.rxu ∧
        DerivedPeers s.ctr.table s.cfg.ownAddress t.pmn ∧
        t.flt = { State.reset.flt with flags := s.flt.flags, first := s.flt.first } ∧
        t.lpt = { State.reset.lpt with enables := s.lpt.enables } ∧
        t.cfg = s.cfg ∧ t.rstLow = s.rstLow ∧ t.pending = s.pending) ∧
    (s.stc.softReset = .none ∨ (s.stc.softReset = .armed ∧ s.lif.tx ≠ none) → exec .softReset s = .next s)

/-! ### Transactions: framing -/

/-- A fall of SEL_N starts a transaction from IDLE, unless RST_N is low (R64, R166). A rise of SEL_N before the taking abandons
the transaction with no effect (R67, R169); after the taking it returns the port to IDLE (R168), and after a RESTART the soft
reset takes effect at that rise with the driver OFF, and waits for the cut with the driver ON (R63; log 13). In another state of
the port each does nothing (log 2). -/
def Obligations.PortFraming : Prop :=
  ∀ s : State,
    (s.lpt.state = .idle → s.rstLow = false →
      ∃ t, exec .selNFall s = .next t ∧ t.lpt.state = .command ∧ t.lpt.byteCount = 0 ∧ t.lpt.command = none ∧
        t.lpt.args = [] ∧ t.lpt.reply = [] ∧ t.lpt.sdo = some 0 ∧ LinesKept s t ∧ SameOutside [.lpt] s t) ∧
    (s.lpt.state ≠ .idle ∨ s.rstLow = true → exec .selNFall s = .next s) ∧
    (s.lpt.state = .command ∨ s.lpt.state = .arguments →
      ∃ t, exec .transactionAbandoned s = .next t ∧ t.lpt.state = .idle ∧ t.lpt.sdo = none ∧ t.lpt.args = [] ∧
        t.lpt.reply = [] ∧ TransmitKept s t ∧ LinesKept s t ∧ SameOutside [.lpt, .txs] s t) ∧
    (s.lpt.state = .idle ∨ s.lpt.state = .answer ∨ s.lpt.state = .discard → exec .transactionAbandoned s = .next s) ∧
    (s.lpt.state = .answer ∨ s.lpt.state = .discard →
      (s.stc.softReset ≠ .armed →
        ∃ t, exec .transactionEnd s = .next t ∧ t.lpt.state = .idle ∧ t.lpt.sdo = none ∧ t.lpt.reply = [] ∧
          TransmitKept s t ∧ LinesKept s t ∧ SameOutside [.lpt, .txs] s t) ∧
      (s.stc.softReset = .armed → s.lif.tx = none → exec .transactionEnd s = exec .softReset s) ∧
      (s.stc.softReset = .armed → s.lif.tx ≠ none →
        ∃ t, exec .transactionEnd s = .next t ∧ t.lpt.state = .idle ∧ t.lpt.sdo = none ∧ t.lpt.reply = [] ∧
          t.stc = { s.stc with softReset := .waiting } ∧ TransmitKept s t ∧ LinesKept s t ∧
          SameOutside [.lpt, .txs, .stc] s t)) ∧
    (s.lpt.state = .idle ∨ s.lpt.state = .command ∨ s.lpt.state = .arguments → exec .transactionEnd s = .next s)

/-- A code the port does not know is taken at once and answered UNKNOWN with no effect (R167, R170). While a soft reset waits
to take effect the answer is UNKNOWN or BUSY, a free value (log 9). In another port state, or for a known code, the row changes
nothing, the model's choice (log 2). -/
def Obligations.UnknownAnswered : Prop :=
  ∀ (code : Byte) (s : State),
    (s.lpt.state = .command → Command.ofCode code = none →
      ∃ t, exec (.unknownCommand code) s = .next t ∧
        (s.stc.softReset ≠ .waiting → OnlyAnswered .unknown [] s t) ∧
        (s.stc.softReset = .waiting → OnlyAnswered .unknown [] s t ∨ OnlyAnswered .busy [] s t)) ∧
    (s.lpt.state ≠ .command ∨ Command.ofCode code ≠ none → exec (.unknownCommand code) s = .next s)

/-- One byte on SDI by transaction state: nothing in IDLE; in COMMAND an unknown code is taken and the code of a command with
arguments opens ARGUMENTS; in ARGUMENTS a byte that is not the last is counted, and kept as an argument or in the staging
area, or beyond its 512 places not kept; in ANSWER the next byte of the answer is sent, and after the last one the port is in
DISCARD; in DISCARD the idle byte is sent; and over the eight bits of a byte SDO shows it from bit 7 down to bit 0 (R67, R166
to R168, R170, R181). The level is a function of the state and the bit, the model's form (log 19). -/
def Obligations.PortByteByState : Prop :=
  ∀ (b : Byte) (s : State),
    (s.lpt.state = .idle → exec (.portByteCompleted b) s = .next s) ∧
    (s.lpt.state = .command → Command.ofCode b = none →
      exec (.portByteCompleted b) s = exec (.unknownCommand b) s) ∧
    (∀ c, s.lpt.state = .command → s.lpt.args = [] → Command.ofCode b = some c → c.argumentTotal [] ≠ some 0 →
      exec (.portByteCompleted b) s =
        .next { s with lpt := { s.lpt with state := .arguments, command := some c, byteCount := 1, sdo := some 0 } }) ∧
    (∀ c, s.lpt.state = .arguments → s.lpt.command = some c → (c ≠ .submit ∨ s.lpt.args.length < 5) →
      c.argumentTotal (s.lpt.args ++ [b]) ≠ some s.lpt.byteCount →
      exec (.portByteCompleted b) s =
        .next { s with lpt := { s.lpt with args := s.lpt.args ++ [b], byteCount := s.lpt.byteCount + 1, sdo := some 0 } }) ∧
    (s.lpt.state = .arguments → s.lpt.command = some .submit → 5 ≤ s.lpt.args.length →
      Command.submit.argumentTotal s.lpt.args ≠ some s.lpt.byteCount →
      exec (.portByteCompleted b) s =
        .next { s with lpt := { s.lpt with byteCount := s.lpt.byteCount + 1, sdo := some 0 },
                       txs := { s.txs with staging :=
                         if s.txs.staging.length < 512 then s.txs.staging ++ [b] else s.txs.staging } }) ∧
    (∀ x rest, s.lpt.state = .answer → s.lpt.reply = x :: rest →
      exec (.portByteCompleted b) s =
        .next { s with lpt := { s.lpt with reply := rest, sdo := some x,
                                           state := if rest = [] then .discard else .answer } }) ∧
    (s.lpt.state = .discard → exec (.portByteCompleted b) s = .next { s with lpt := { s.lpt with sdo := some 0 } }) ∧
    ∀ j : Fin 8, sdoPin s j = s.lpt.sdo.map fun x => x.getLsbD (7 - j.val)

/-- Sending a transaction byte by byte from COMMAND, the code first, ends in the same state as its row of the table; and so do
the bytes that the levels of SDI spell, each byte from bit 7 down to bit 0, the bits of a byte not completed dropped (R166,
R167, R181; logs 3, 4 and 19). -/
def Obligations.BytesMakeTheTransaction : Prop :=
  ∀ (i : Instr) (c : Command) (args payload : List Byte) (s : State),
    transactionOf i = some (c, args, payload) → i.wellFormed = true →
    s.lpt.state = .command → s.lpt.args = [] → s.txs.staging = [] →
    execAll ((c.code :: (args ++ payload)).map Instr.portByteCompleted) s = exec i s ∧
      ∀ rest : List Bool, rest.length < 8 →
        let levels := (c.code :: (args ++ payload)).flatMap fun b => (List.range 8).map fun j => b.getLsbD (7 - j)
        execAll ((clockedBytes (levels ++ rest)).map Instr.portByteCompleted) s = exec i s

/-- Every awaited transaction is answered, and one answered with anything but OK has no reply and no effect (R168, R170); every
one taken while a soft reset waits to take effect is answered BUSY (R170). A transaction the port does not await is not taken
and changes nothing, the model's choice (log 3). -/
def Obligations.RefusalHasNoEffect : Prop :=
  ∀ (i : Instr) (s : State),
    (transactionOf i ≠ none → ¬ Awaited i s → exec i s = .next s) ∧
    (Awaited i s → s.stc.softReset = .waiting → ∃ t, exec i s = .next t ∧ OnlyAnswered .busy [] s t) ∧
    (Awaited i s →
      ∃ t r reply, exec i s = .next t ∧ Answered r reply t ∧ (r ≠ .ok → reply = [] ∧ OnlyAnswered r [] s t))

/-! ### Configuration -/

/-- SETUP: BUSY outside CONFIG, REJECTED with an item out of range; otherwise every item is replaced, the peer records are
derived, the report period counter is 0, a quiet counter above Q comes down to Q with the quiet flag set, and each request line
takes its condition as it stands (R171, R172). -/
def Obligations.Setup : Prop :=
  ∀ (args : List Byte) (s : State), Takeable (.setup args) s →
    (s.stc.station ≠ .config → ∃ t, exec (.setup args) s = .next t ∧ OnlyAnswered .busy [] s t) ∧
    (s.stc.station = .config → ¬ SetupRanges args →
      ∃ t, exec (.setup args) s = .next t ∧ OnlyAnswered .rejected [] s t) ∧
    (s.stc.station = .config → SetupRanges args →
      ∃ t, exec (.setup args) s = .next t ∧ Answered .ok [] t ∧ SetupCarries args t.cfg ∧
        DerivedPeers s.ctr.table t.cfg.ownAddress t.pmn ∧ t.flt = { s.flt with period := 0 } ∧
        t.rxu = { s.rxu with quiet := min s.rxu.quiet t.cfg.quietLimit,
                             quietFlag := s.rxu.quietFlag || decide (t.cfg.quietLimit < s.rxu.quiet) } ∧
        t.lpt.dlvReq = dlvLevel t.cfg.dlvMode false t.cfg.trigger t.rxu.delivery.length t.rxu.quietFlag ∧
        t.lpt.subReq = subLevel t.cfg.subMode false t.txs.free ∧ t.lpt.enables = s.lpt.enables ∧ TransmitKept s t ∧
        SameOutside [.lpt, .txs, .cfg, .pmn, .flt, .rxu] s t)

/-- TABLE: BUSY outside CONFIG, REJECTED with L of 0 or over 64 or an owner over 31; otherwise the table holds exactly the new
entries, the digest is theirs, as the shifts of R25 give it over L and the entry bytes, and the peer records are derived (R24,
R25, R132). -/
def Obligations.Table : Prop :=
  ∀ (length : Byte) (entries : List Byte) (s : State), Takeable (.table length entries) s →
    (s.stc.station ≠ .config → ∃ t, exec (.table length entries) s = .next t ∧ OnlyAnswered .busy [] s t) ∧
    (s.stc.station = .config → (length = 0 ∨ 64 < length.toNat ∨ ∃ b ∈ entries, 31 < b.toNat / 4) →
      ∃ t, exec (.table length entries) s = .next t ∧ OnlyAnswered .rejected [] s t) ∧
    (s.stc.station = .config → 1 ≤ length.toNat → length.toNat ≤ 64 → (∀ b ∈ entries, b.toNat / 4 ≤ 31) →
      ∃ t, exec (.table length entries) s = .next t ∧ Answered .ok [] t ∧ t.ctr.table.length = length.toNat ∧
        t.ctr.table.map (fun e => (e.owner.val, e.floor.val)) = entries.map (fun b => (b.toNat / 4, b.toNat % 4)) ∧
        t.ctr = { s.ctr with table := t.ctr.table, digest := tableDigest t.ctr.table } ∧
        Steps DigestStep (length :: entries) 0 t.ctr.digest ∧
        DerivedPeers t.ctr.table s.cfg.ownAddress t.pmn ∧ TransmitKept s t ∧ LinesKept s t ∧
        SameOutside [.lpt, .txs, .ctr, .pmn] s t)

/-- ENABLE replaces all six enables at once, in every station state; no cause changes, and INT follows the new enables (R174,
R176). -/
def Obligations.Enable : Prop :=
  ∀ (causes : Byte) (s : State), Takeable (.enable causes) s →
    ∃ t, exec (.enable causes) s = .next t ∧ Answered .ok [] t ∧
      (∀ k : Cause, t.lpt.enables.getLsbD k.bit = causes.getLsbD k.bit) ∧
      (∀ k : Cause, causePending t k = causePending s k) ∧
      (intActive t = true ↔ ∃ k : Cause, causePending s k = true ∧ causes.getLsbD k.bit = true) ∧
      t.lpt.dlvReq = s.lpt.dlvReq ∧ t.lpt.subReq = s.lpt.subReq ∧ TransmitKept s t ∧ SameOutside [.lpt, .txs] s t

/-- TEST sets each insertion it names, one already pending staying pending; a set that names neither, or another bit, is
REJECTED (R22, R173). -/
def Obligations.Test : Prop :=
  ∀ (b : Byte) (s : State), Takeable (.test b) s →
    (b = 0 ∨ 4 ≤ b.toNat → ∃ t, exec (.test b) s = .next t ∧ OnlyAnswered .rejected [] s t) ∧
    (1 ≤ b.toNat → b.toNat ≤ 3 →
      ∃ t, exec (.test b) s = .next t ∧ Answered .ok [] t ∧
        t.fru = { s.fru with testPattern := s.fru.testPattern || b.getLsbD 0, testCrc := s.fru.testCrc || b.getLsbD 1 } ∧
        TransmitKept s t ∧ LinesKept s t ∧ SameOutside [.lpt, .txs, .fru] s t)

/-! ### State commands -/

/-- JOIN: BUSY outside CONFIG, REJECTED with L of 0; otherwise the station enters LISTEN with the cold attempt count 0, the
receiver SETTLING, the Cycle Tracker UNALIGNED with its cold-start wait at full length when a phase is owned, and the peer
records derived (R3, R39, R45, R49, R132). -/
def Obligations.Join : Prop :=
  ∀ s : State, Takeable .join s →
    (s.stc.station ≠ .config → ∃ t, exec .join s = .next t ∧ OnlyAnswered .busy [] s t) ∧
    (s.stc.station = .config → s.ctr.table = [] → ∃ t, exec .join s = .next t ∧ OnlyAnswered .rejected [] s t) ∧
    (s.stc.station = .config → s.ctr.table ≠ [] →
      ∃ t, exec .join s = .next t ∧ Answered .ok [] t ∧
        t.stc = { s.stc with station := .listen, coldAttempts := 0 } ∧ t.lif = { s.lif with receiver := .settling } ∧
        t.ctr = { s.ctr with aligned := false, p := 0, c := 0, whole := false, skip := .stopped, hold := false,
                             coldAlignPending := false,
                             coldWait := if ∃ e ∈ s.ctr.table, e.owner = s.cfg.ownAddress
                                         then some (48 + 8 * s.cfg.ownAddress.val) else none } ∧
        DerivedPeers s.ctr.table s.cfg.ownAddress t.pmn ∧ TransmitKept s t ∧ LinesKept s t ∧
        SameOutside [.lpt, .txs, .stc, .lif, .ctr, .pmn] s t)

/-- LEAVE: BUSY in CONFIG; with the driver OFF the station enters CONFIG at once: the receiver OFF, the frame discarded, the
test insertions cleared, alignment cleared, every context returned to QUEUED, the reassembly table emptied without fault;
with the driver ON it stays as it is until the cut (R22, R45, R59, R62, R102, R129). -/
def Obligations.Leave : Prop :=
  ∀ s : State, Takeable .leave s →
    (s.stc.station = .config → ∃ t, exec .leave s = .next t ∧ OnlyAnswered .busy [] s t) ∧
    (s.stc.station ≠ .config → s.lif.tx = none →
      ∃ t, exec .leave s = .next t ∧ Answered .ok [] t ∧
        t.stc = { s.stc with station := .config, pendingExit := none } ∧
        t.lif = { s.lif with receiver := .off, frameEndDue := false } ∧
        t.fru = ⟨none, false, false⟩ ∧
        t.ctr = { State.reset.ctr with table := s.ctr.table, digest := s.ctr.digest } ∧
        t.txs = { s.txs with staging := [], current := none, stack := [], inFlight := none,
                             queues := s.txs.queues.map fun q => q.map fun m => { m with state := .queued } } ∧
        t.rxu = { s.rxu with segBuf := [], table := [],
                             free := s.rxu.free + (s.rxu.table.map fun e => e.blocks.length).sum } ∧
        LinesKept s t ∧ SameOutside [.lpt, .txs, .stc, .lif, .fru, .ctr, .rxu] s t) ∧
    (s.stc.station ≠ .config → s.lif.tx ≠ none →
      ∃ t, exec .leave s = .next t ∧ Answered .ok [] t ∧ t.stc = { s.stc with pendingExit := some .toConfig } ∧
        TransmitKept s t ∧ LinesKept s t ∧ SameOutside [.lpt, .txs, .stc] s t)

/-- REJOIN: OK in SILENT, where the station enters LISTEN with the cold attempt count 0, alignment cleared and the cold-start
wait at full length when a phase is owned; BUSY elsewhere (R45, R61). -/
def Obligations.Rejoin : Prop :=
  ∀ s : State, Takeable .rejoin s →
    (s.stc.station ≠ .silent → ∃ t, exec .rejoin s = .next t ∧ OnlyAnswered .busy [] s t) ∧
    (s.stc.station = .silent →
      ∃ t, exec .rejoin s = .next t ∧ Answered .ok [] t ∧
        t.stc = { s.stc with station := .listen, coldAttempts := 0 } ∧
        t.ctr = { State.reset.ctr with
          table := s.ctr.table, digest := s.ctr.digest,
          coldWait := if ∃ e ∈ s.ctr.table, e.owner = s.cfg.ownAddress
                      then some (48 + 8 * s.cfg.ownAddress.val) else none } ∧
        TransmitKept s t ∧ LinesKept s t ∧ SameOutside [.lpt, .txs, .stc, .ctr] s t)

/-- RESTART is answered OK in every station state and arms the soft reset for the rise of SEL_N; until then the station goes
on as before (R63). -/
def Obligations.Restart : Prop :=
  ∀ s : State, Takeable .restart s →
    ∃ t, exec .restart s = .next t ∧ Answered .ok [] t ∧ t.stc = { s.stc with softReset := .armed } ∧ TransmitKept s t ∧
      LinesKept s t ∧ SameOutside [.lpt, .txs, .stc] s t

/-! ### Transmit transactions -/

/-- SUBMIT: the checks of R68 in their order give REJECTED, REJECTED, FULL, FULL; otherwise the payload, cut into
ceil(length/64) pool blocks, and its record in state QUEUED join the tail of the class queue the class map names, and SUB_REQ
follows the free count (R66, R68, R69, R179). -/
def Obligations.Submit : Prop :=
  ∀ (tag priority destination : Byte) (length : Half) (payload : List Byte) (s : State),
    let i : Instr := .submit tag priority destination length payload
    let k : Cls := s.cfg.classMap[Fin.ofNat 8 priority.toNat]
    let n := (length.toNat + 63) / 64
    Takeable i s →
    if 7 < priority.toNat ∨ length = 0 ∨ 512 < length.toNat ∨ (32 ≤ destination.toNat ∧ destination.toNat ≤ 254) ∨
        destination.toNat = s.cfg.ownAddress.val then
      ∃ t, exec i s = .next t ∧ OnlyAnswered .rejected [] s t
    else if ∃ j : Cls, ∃ m ∈ s.txs.queues[j], m.tag = tag then ∃ t, exec i s = .next t ∧ OnlyAnswered .rejected [] s t
    else if 8 ≤ s.txs.queues[k].length then ∃ t, exec i s = .next t ∧ OnlyAnswered .full [] s t
    else if s.txs.free < n then ∃ t, exec i s = .next t ∧ OnlyAnswered .full [] s t
    else
      ∃ t m, exec i s = .next t ∧ Answered .ok [] t ∧
        m.tag = tag ∧ m.cls = k ∧ m.destination = destination ∧ m.length = length.toNat ∧ m.state = .queued ∧
        m.blocks.length = n ∧ (∀ j < n, m.blocks[j]? = some ((payload.drop (64 * j)).take 64)) ∧
        t.txs.queues[k] = s.txs.queues[k] ++ [m] ∧ (∀ j : Cls, j ≠ k → t.txs.queues[j] = s.txs.queues[j]) ∧
        t.txs = { s.txs with staging := [], queues := t.txs.queues, free := s.txs.free - n } ∧
        t.lpt.subReq = subLevel s.cfg.subMode s.lpt.subReq t.txs.free ∧ t.lpt.dlvReq = s.lpt.dlvReq ∧
        t.lpt.enables = s.lpt.enables ∧ SameOutside [.lpt, .txs] s t

/-- WITHDRAW: REJECTED where no record holds the tag, BUSY while a segment of the message is on the line, BUSY where the
completion queue counts 16; otherwise the message leaves its queue and any context, its pool blocks return, and a WITHDRAWN
record joins the completion queue (R76 to R79, R96). The premise rules out states in which two records share a tag (R73). -/
def Obligations.Withdraw : Prop :=
  ∀ (tag : Byte) (s : State), TagsDistinct s → Takeable (.withdraw tag) s →
    ((∀ j : Cls, ∀ m ∈ s.txs.queues[j], m.tag ≠ tag) →
      ∃ t, exec (.withdraw tag) s = .next t ∧ OnlyAnswered .rejected [] s t) ∧
    ∀ (j : Cls) (m : Message), m ∈ s.txs.queues[j] → m.tag = tag →
      ((∃ index last, s.txs.inFlight = some (.data tag index last)) ∨ 16 ≤ completionsCounted s.txs →
        ∃ t, exec (.withdraw tag) s = .next t ∧ OnlyAnswered .busy [] s t) ∧
      ((∀ index last, s.txs.inFlight ≠ some (.data tag index last)) → completionsCounted s.txs < 16 →
        ∃ t, exec (.withdraw tag) s = .next t ∧ Answered .ok [] t ∧
          (∀ k : Cls, t.txs.queues[k] = s.txs.queues[k].filter fun x => x.tag != tag) ∧
          t.txs.free = s.txs.free + m.blocks.length ∧
          t.txs.completions = s.txs.completions ++ [⟨tag, m.cls, .withdrawn⟩] ∧
          t.txs.current = (if s.txs.current = some tag then none else s.txs.current) ∧
          t.txs.stack = s.txs.stack.filter (fun x => x != tag) ∧ t.txs.numbers = s.txs.numbers ∧
          t.txs.inFlight = s.txs.inFlight ∧ t.txs.staging = [] ∧
          t.lpt.subReq = subLevel s.cfg.subMode s.lpt.subReq t.txs.free ∧ t.lpt.dlvReq = s.lpt.dlvReq ∧
          t.lpt.enables = s.lpt.enables ∧ SameOutside [.lpt, .txs] s t)

/-- COMPLETIONS: REJECTED with n of 0 or over 16, EMPTY on an empty queue; otherwise the first min(n, m) records are removed
and returned, oldest first, after their count (R80; 10, COMPLETIONS). -/
def Obligations.Completions : Prop :=
  ∀ (n : Byte) (s : State), Takeable (.completions n) s →
    if n = 0 ∨ 16 < n.toNat then ∃ t, exec (.completions n) s = .next t ∧ OnlyAnswered .rejected [] s t
    else if s.txs.completions = [] then ∃ t, exec (.completions n) s = .next t ∧ OnlyAnswered .empty [] s t
    else
      ∃ t, exec (.completions n) s = .next t ∧
        Answered .ok (BitVec.ofNat 8 (min n.toNat s.txs.completions.length) ::
          (s.txs.completions.take n.toNat).flatMap fun r =>
            [r.tag, BitVec.ofNat 8 (r.cls.val + 4 * r.outcome.code)]) t ∧
        t.txs = { s.txs with staging := [], completions := s.txs.completions.drop n.toNat } ∧ LinesKept s t ∧
        SameOutside [.lpt, .txs] s t

/-! ### Reading -/

/-- FETCH, taken when its command byte arrives: EMPTY on an empty delivery queue; otherwise the head record is removed and
returned, its pool blocks return, the quiet counter is 0 and the quiet flag clear, and DLV_REQ follows the queue (R122, R124,
R178; 10, FETCH). -/
def Obligations.Fetch : Prop :=
  ∀ s : State, Takeable .fetch s →
    TakenByItsCode .fetch 0x30 s ∧
    (s.rxu.delivery = [] → ∃ t, exec .fetch s = .next t ∧ OnlyAnswered .empty [] s t) ∧
    ∀ d rest, s.rxu.delivery = d :: rest →
      ∃ t, exec .fetch s = .next t ∧
        Answered .ok ([BitVec.ofNat 8 d.sender.val, BitVec.ofNat 8 (d.cls.val + 128 * d.broadcast.toNat),
          BitVec.ofNat 8 (d.length / 256), BitVec.ofNat 8 d.length, d.cycle] ++ d.blocks.flatten.take d.length) t ∧
        t.rxu = { s.rxu with delivery := rest, free := s.rxu.free + d.blocks.length, quiet := 0, quietFlag := false } ∧
        t.lpt.dlvReq = dlvLevel s.cfg.dlvMode s.lpt.dlvReq s.cfg.trigger rest.length false ∧
        t.lpt.subReq = s.lpt.subReq ∧ t.lpt.enables = s.lpt.enables ∧ TransmitKept s t ∧
        SameOutside [.lpt, .txs, .rxu] s t

/-- STATUS returns its 21 items as they stand, then clears the STATION cause and no other (R65, R175; 10, STATUS). -/
def Obligations.Status : Prop :=
  ∀ s : State, Takeable .status s →
    ∃ t, exec .status s = .next t ∧
      Answered .ok
        [match s.stc.station with
          | .config => 0 | .listen => 1 | .cold => 2 | .active => 3 | .silent => 4,
         BitVec.ofNat 8 (s.ctr.aligned.toNat + 2 * s.ctr.hold.toNat), BitVec.ofNat 8 s.ctr.table.length, s.ctr.digest,
         BitVec.ofNat 8 s.ctr.p.val, s.ctr.c, BitVec.ofNat 8 s.cfg.ownAddress.val, BitVec.ofNat 8 s.stc.coldAttempts,
         BitVec.ofNat 8 s.lif.echoFailures, BitVec.ofNat 8 s.txs.queues[0].length, BitVec.ofNat 8 s.txs.queues[1].length,
         BitVec.ofNat 8 s.txs.queues[2].length, BitVec.ofNat 8 s.txs.queues[3].length, BitVec.ofNat 8 s.txs.free,
         BitVec.ofNat 8 s.txs.stack.length, BitVec.ofNat 8 s.txs.completions.length,
         BitVec.ofNat 8 s.rxu.table.length, BitVec.ofNat 8 s.rxu.free, BitVec.ofNat 8 s.rxu.delivery.length,
         BitVec.ofNat 8 ((causePending s .station).toNat + 2 * (causePending s .fault).toNat +
           4 * (causePending s .delivery).toNat + 8 * (causePending s .completion).toNat +
           16 * (causePending s .peer).toNat + 32 * (causePending s .report).toNat),
         match identifiedCause s with
          | none => 0
          | some k => BitVec.ofNat 8 (k.bit + 1)] t ∧
      t.stc = { s.stc with stationCause := false } ∧ TransmitKept s t ∧ LinesKept s t ∧
      SameOutside [.lpt, .txs, .stc] s t

/-- PEERS: REJECTED with a first address over 31, a count of 0 or over 32, or a sum over 32; otherwise the records are
returned in ascending order of address, seven bytes each with their change flags as they stood, and those flags are cleared
(R144; 10, PEERS). -/
def Obligations.Peers : Prop :=
  ∀ (first count : Byte) (s : State), Takeable (.peers first count) s →
    if 31 < first.toNat ∨ count = 0 ∨ 32 < count.toNat ∨ 32 < first.toNat + count.toNat then
      ∃ t, exec (.peers first count) s = .next t ∧ OnlyAnswered .rejected [] s t
    else
      ∃ t, exec (.peers first count) s = .next t ∧
        Answered .ok
          ((List.range count.toNat).flatMap fun j =>
            let a : Addr := Fin.ofNat 32 (first.toNat + j)
            let r := s.pmn.peers[a]
            [BitVec.ofNat 8 (first.toNat + j), BitVec.ofNat 8 r.presence.code,
             BitVec.ofNat 8 (r.silentRun + 4 * r.returnRun + 8 * r.quality.code + 32 * r.mismatch.toNat +
               64 * r.presenceChanged.toNat + 128 * r.qualityChanged.toNat),
             BitVec.ofNat 8 (r.lastErrors.getD 255), BitVec.ofNat 8 r.lastHeard.isSome.toNat, r.lastHeard.getD 0,
             BitVec.ofNat 8 r.owned]) t ∧
        (∀ a : Addr, t.pmn.peers[a] =
          if first.toNat ≤ a.val ∧ a.val < first.toNat + count.toNat then
            { s.pmn.peers[a] with presenceChanged := false, qualityChanged := false }
          else s.pmn.peers[a]) ∧
        t.pmn.marks = s.pmn.marks ∧ TransmitKept s t ∧ LinesKept s t ∧ SameOutside [.lpt, .txs, .pmn] s t

/-- FAULTS, taken when its command byte arrives, returns the ten status flags and the first-fault record, every field of a
valid one and zeros of an invalid one, and changes no flag, no field and no cause (R154; 10, FAULTS). -/
def Obligations.Faults : Prop :=
  ∀ s : State, Takeable .faults s →
    TakenByItsCode .faults 0x50 s ∧ ∃ t, exec .faults s = .next t ∧
      OnlyAnswered .ok
        ([BitVec.ofNat 8 (s.flt.flags.toNat / 256), BitVec.ofNat 8 s.flt.flags.toNat] ++
          match s.flt.first with
          | none => List.replicate 15 0
          | some r =>
            [BitVec.ofNat 8 (1 + 2 * r.sender.isSome.toNat + 4 * r.cls.isSome.toNat), BitVec.ofNat 8 (r.kind.bit + 1),
             BitVec.ofNat 8 ((r.sender.map Fin.val).getD 0), BitVec.ofNat 8 ((r.cls.map Fin.val).getD 0),
             BitVec.ofNat 8 r.phase.val, r.cycle, BitVec.ofNat 8 r.bytes.length] ++
              (r.bytes ++ List.replicate (8 - r.bytes.length) 0)) s t ∧
      ∀ k : Cause, causePending t k = causePending s k

/-- FAULT CLEAR clears the flags of the named kinds, and a valid record of a named kind becomes invalid; bits that name no kind
are ignored (R155, R182). -/
def Obligations.FaultClear : Prop :=
  ∀ (kinds : Half) (s : State), Takeable (.faultClear kinds) s →
    ∃ t, exec (.faultClear kinds) s = .next t ∧ Answered .ok [] t ∧
      (∀ k : FaultKind, hasKind t.flt.flags k = (hasKind s.flt.flags k && !kinds.getLsbD k.bit)) ∧
      (∀ r, s.flt.first = some r → t.flt.first = if kinds.getLsbD r.kind.bit then none else some r) ∧
      (s.flt.first = none → t.flt.first = none) ∧
      t.flt = { s.flt with flags := t.flt.flags, first := t.flt.first } ∧ TransmitKept s t ∧ LinesKept s t ∧
      SameOutside [.lpt, .txs, .flt] s t

/-- COUNTER, taken when its command byte arrives, returns the snapshot and the live counter with their flags, then clears the
report-ready flag and the live overflow flag and nothing else (R162; 10, COUNTER). -/
def Obligations.Counter : Prop :=
  ∀ s : State, Takeable .counter s →
    TakenByItsCode .counter 0x52 s ∧ ∃ t, exec .counter s = .next t ∧
      Answered .ok
        [BitVec.ofNat 8 (s.flt.snapshot.toNat / 256), BitVec.ofNat 8 s.flt.snapshot.toNat,
         BitVec.ofNat 8 (s.flt.snapOverflow.toNat + 2 * s.flt.reportReady.toNat + 4 * s.flt.liveOverflow.toNat),
         BitVec.ofNat 8 (s.flt.lineErrors.toNat / 256), BitVec.ofNat 8 s.flt.lineErrors.toNat] t ∧
      t.flt = { s.flt with reportReady := false, liveOverflow := false } ∧ TransmitKept s t ∧ LinesKept s t ∧
      SameOutside [.lpt, .txs, .flt] s t

/-- SNAPSHOT, taken when its command byte arrives, in every station state: OK with a transfer in ON_DEMAND mode, also at a
counter of 0; REJECTED with no effect in PERIODIC mode (R160). -/
def Obligations.Snapshot : Prop :=
  ∀ s : State, Takeable .snapshot s →
    TakenByItsCode .snapshot 0x53 s ∧
    (s.cfg.reportMode = .onDemand →
      ∃ t, exec .snapshot s = .next t ∧ Answered .ok [] t ∧
        t.flt = { s.flt with snapshot := s.flt.lineErrors, snapOverflow := s.flt.liveOverflow, lineErrors := 0,
                             liveOverflow := false, reportReady := true } ∧
        TransmitKept s t ∧ LinesKept s t ∧ SameOutside [.lpt, .txs, .flt] s t) ∧
    (s.cfg.reportMode = .periodic → ∃ t, exec .snapshot s = .next t ∧ OnlyAnswered .rejected [] s t)

/-! ### The receiver -/

/-- RECEIVER_SETTLED takes SETTLING to IDLE, FALLING_EDGE takes IDLE to CHARACTER, BREAK_ENDED takes BREAK to IDLE, and
FALSE_START takes an edge not yet confirmed back to IDLE where nothing waits for its sample (R3, R4). A frame end with such an
edge waits for its sample, and comes with the FALSE_START (R5). In another state of the receiver each does nothing, and so does
FRAME_END with no frame on the line or the driver ON (logs 2, 23). -/
def Obligations.ReceiverMoves : Prop :=
  ∀ s : State,
    (s.lif.receiver = .settling → exec .receiverSettled s = .next { s with lif := { s.lif with receiver := .idle } }) ∧
    (s.lif.receiver ≠ .settling → exec .receiverSettled s = .next s) ∧
    (s.lif.receiver = .idle → exec .fallingEdge s = .next { s with lif := { s.lif with receiver := .character false } }) ∧
    (s.lif.receiver ≠ .idle → exec .fallingEdge s = .next s) ∧
    (s.lif.receiver = .brk → exec .breakEnded s = .next { s with lif := { s.lif with receiver := .idle } }) ∧
    (s.lif.receiver ≠ .brk → exec .breakEnded s = .next s) ∧
    (s.lif.receiver = .character false → s.lif.frameEndDue = false → s.ctr.skip ≠ .awaitingSample →
      exec .falseStart s = .next { s with lif := { s.lif with receiver := .idle } }) ∧
    (s.lif.receiver ≠ .character false → exec .falseStart s = .next s) ∧
    (s.lif.receiver = .character false → s.fru.frame ≠ none → s.lif.tx = none →
      exec .frameEnd s = .next { s with lif := { s.lif with frameEndDue := true } }) ∧
    (s.lif.receiver = .character false → s.lif.frameEndDue = true → s.lif.tx = none → s.ctr.skip ≠ .awaitingSample →
      exec .falseStart s = exec .frameEnd { s with lif := { s.lif with receiver := .idle, frameEndDue := false } }) ∧
    (s.fru.frame = none ∨ s.lif.tx ≠ none → exec .frameEnd s = .next s)

/-- START_BIT_SEEN: in SETTLING line activity alone, which stops the skip timer and restarts a running cold-start wait at full
length; on an edge in CHARACTER also the first start bit of a frame, or the next one of the frame being gathered, with the
alignment at that moment noted. After an own frame of which no start bit was heard, while UNALIGNED and with no frame end
waiting for this sample, the start bit may go on with that frame or begin a new one, a free value (log 31). In another state
of the receiver nothing (R3 to R5, R11, R29, R36, R40; log 2). -/
def Obligations.StartBitSeen : Prop :=
  ∀ s : State,
    let ctr := { s.ctr with skip := .stopped, coldWait := s.ctr.coldWait.map fun _ => 48 + 8 * s.cfg.ownAddress.val }
    (s.lif.receiver = .settling → exec .startBitSeen s = .next { s with ctr := ctr }) ∧
    (s.lif.receiver = .character false →
      ∃ t f, exec .startBitSeen s = .next t ∧ t.ctr = ctr ∧
        t.lif = { s.lif with receiver := .character true, frameEndDue := false } ∧
        t.fru = { s.fru with frame := some f } ∧ f.begun = true ∧
        (s.fru.frame = none → f = ⟨[], s.lif.tx.isSome, true, s.ctr.aligned, false⟩) ∧
        (∀ g, s.fru.frame = some g → g.begun = true → f = g) ∧
        (∀ g, s.fru.frame = some g → g.begun = false →
          f = { g with begun := true, alignedAtStart := s.ctr.aligned } ∨
            (g.own = true ∧ s.lif.tx = none ∧ s.lif.frameEndDue = false ∧ s.ctr.aligned = false ∧
              f = ⟨[], false, true, false, false⟩)) ∧
        (s.fru.frame = none ∨ s.lif.tx ≠ none ∨ s.lif.frameEndDue = true ∨ s.ctr.aligned = true →
          t.freeCount = s.freeCount) ∧
        SameOutside [.ctr, .lif, .fru, .freeCount] s t) ∧
    (s.lif.receiver ≠ .settling → s.lif.receiver ≠ .character false → exec .startBitSeen s = .next s)

/-- CHARACTER_RECEIVED: the receiver returns to IDLE, or enters BREAK on a bad stop bit; the character is the echo of the next
intended byte, and joins a frame of another station, up to 300 characters, past which only its framing error is noted; a
payload byte of a DATA frame goes to the segment buffer, the first one starting it again, and no byte is kept past 64 (R4, R8,
R11, R19, R105). With no confirmed start bit the command does nothing (log 2). -/
def Obligations.CharacterReceived : Prop :=
  ∀ (data : Byte) (good : Bool) (s : State),
    (s.lif.receiver ≠ .character true → exec (.characterReceived data good) s = .next s) ∧
    (s.lif.receiver = .character true →
      ∃ t, exec (.characterReceived data good) s = .next t ∧
        t.lif = { s.lif with receiver := if good then .idle else .brk, tx := t.lif.tx } ∧
        (s.lif.tx = none → t.lif.tx = none) ∧
        (∀ x b, s.lif.tx = some x → x.bytes[x.matched]? = some b →
          t.lif.tx = some (if good = true ∧ data = b ∧ x.mismatch = false then { x with matched := x.matched + 1 }
                           else { x with mismatch := true })) ∧
        (s.fru.frame = none → t.fru = s.fru ∧ t.rxu = s.rxu) ∧
        (∀ f, s.fru.frame = some f → f.own = true → t.fru = s.fru ∧ t.rxu = s.rxu) ∧
        (∀ f, s.fru.frame = some f → f.own = false →
          t.fru = { s.fru with frame := t.fru.frame } ∧
          t.fru.frame = some (if f.chars.length < 300 then { f with chars := f.chars ++ [⟨data, good⟩] }
                              else { f with lateBad := f.lateBad || !good }) ∧
          t.rxu = { s.rxu with segBuf := t.rxu.segBuf } ∧
          (¬ (kindOf f.bytes = some .data ∧ 8 ≤ f.chars.length ∧ f.chars.length < 8 + lengthOf f.bytes) →
            t.rxu.segBuf = s.rxu.segBuf) ∧
          (kindOf f.bytes = some .data → f.chars.length = 8 → 1 ≤ lengthOf f.bytes → t.rxu.segBuf = [data]) ∧
          (kindOf f.bytes = some .data → 8 < f.chars.length → f.chars.length < 8 + lengthOf f.bytes →
            t.rxu.segBuf = if s.rxu.segBuf.length < 64 then s.rxu.segBuf ++ [data] else s.rxu.segBuf)) ∧
        SameOutside [.lif, .fru, .rxu] s t)

/-! ### Frame ends -/

/-- The outcome of a frame is the first fault met as the six checks of R20 are made in order, a framing error past the 300th
character included (R19); its sender is known where its second character came without a framing error (R21). A frame of
another station with a fault, ending where no cycle ends: its kind is recorded with the sender, p and c before the advance and
its first 8 bytes; the line error counter is raised by the table of R157, by FRAMING and CRC whatever the masks; a DIGEST
outcome sets its sender's mismatch flag and a FOREIGN one clears it; nothing reaches the Receive Unit; and while ALIGNED the
phase ends. So also in COLD, for the frame that a withheld COLD frame waits for, after which the station is UNALIGNED as
before (R19 to R21, R27, R30, R31, R45, R54, R141, R149 to R153, R157). -/
def Obligations.FaultFrameRecorded : Prop :=
  (∀ (table : List PhaseEntry) (digest : Byte) (f : Gather) (outcome : FrameOutcome),
    checkFrame table digest f = outcome ↔ OutcomeByChecks table digest f outcome) ∧
  (∀ (f : Gather) (a : Addr),
    faultSender f = some a ↔ ∃ ch, f.chars[1]? = some ch ∧ ch.good = true ∧ a.val = ch.data.toNat % 32) ∧
  ∀ (f : Gather) (outcome : FrameOutcome) (kind : FaultKind) (s : State),
    EndsWith f outcome s → outcome.kind = some kind → ¬ LastPhase s →
    ∃ t, exec .frameEnd s = .next t ∧
      t.flt = recorded s.cfg.masks ⟨kind, faultSender f, none, s.ctr.p, s.ctr.c, f.bytes.take 8⟩
        (countErrors (counted s.cfg.selection outcome (patternErrors f)) s.flt) ∧
      t.rxu = { s.rxu with segBuf := [] } ∧
      (∀ a : Addr, t.pmn.peers[a] = notedPeer f outcome s.cfg.qualityCapture a s.pmn.peers[a]) ∧
      t.pmn.marks = s.pmn.marks ∧ t.cfg = s.cfg ∧ t.ctr.table = s.ctr.table ∧
      (s.stc.station ≠ .cold →
        t.ctr.aligned = s.ctr.aligned ∧ t.ctr.c = s.ctr.c ∧
          t.ctr.p = (if s.ctr.aligned = true then Fin.ofNat 64 (s.ctr.p.val + 1) else s.ctr.p)) ∧
      (s.stc.station = .cold → s.ctr.aligned = false →
        t.ctr.aligned = false ∧
          (t.ctr.p, t.ctr.c) = if Stops kind s then (s.ctr.p, s.ctr.c) else (0, 0))

/-- The same frame at the Station Controller: a kind that is unmasked and STOPPING moves LISTEN, COLD and ACTIVE to SILENT
with STATION pending, HOLD and the cold-start wait dropped and every context returned to QUEUED, and leaves SILENT as it is;
any other kind leaves LISTEN, ACTIVE and SILENT as they are and returns a COLD station that waited for the frame to LISTEN
(R54, R58, R65, R102, R149). That an ACTIVE station is in SILENT before the phase start of the same frame end, so that an own
phase that follows is not offered, is read by the model from R28 and R58 (log 10). -/
def Obligations.FaultFrameStops : Prop :=
  ∀ (f : Gather) (outcome : FrameOutcome) (kind : FaultKind) (s : State),
    EndsWith f outcome s → outcome.kind = some kind → ¬ LastPhase s →
    ∃ t, exec .frameEnd s = .next t ∧
      (Stops kind s → s.stc.station = .listen ∨ s.stc.station = .cold ∨ s.stc.station = .active →
        t.stc.station = .silent ∧ t.stc.stationCause = true ∧ t.stc.coldAttempts = s.stc.coldAttempts ∧
        t.ctr.hold = false ∧ t.ctr.coldWait = none ∧ t.ctr.coldAlignPending = false ∧ t.lif = s.lif ∧
        t.txs = { s.txs with current := none, stack := [], inFlight := none,
                             queues := s.txs.queues.map fun q => q.map fun m => { m with state := .queued } }) ∧
      (s.stc.station = .silent → t.stc = s.stc ∧ t.lif = s.lif ∧ t.txs = s.txs) ∧
      (¬ Stops kind s → s.stc.station = .active →
        t.stc = s.stc ∧ (s.ctr.p.val < 63 → ¬ OffersNext s → t.lif = s.lif ∧ t.txs = s.txs)) ∧
      (¬ Stops kind s → s.stc.station = .listen → t.stc = s.stc ∧ t.lif = s.lif ∧ t.txs = s.txs) ∧
      (¬ Stops kind s → s.stc.station = .cold →
        t.stc = { s.stc with station := .listen } ∧ t.lif = s.lif ∧ t.txs = s.txs ∧ t.ctr.aligned = false ∧
        t.ctr.coldWait = if ∃ e ∈ s.ctr.table, e.owner = s.cfg.ownAddress
                         then some (48 + 8 * s.cfg.ownAddress.val) else none)

/-- A clean frame acquires alignment while UNALIGNED in LISTEN, COLD or SILENT: the phase after the frame's begins in the
frame's cycle, LISTEN and COLD go to ACTIVE with the cold attempt and echo failure counts 0 and STATION pending, SILENT stays,
no SLIP is raised, the frame is not taken, and its sender earns heard credit, with its mismatch flag and its quality as any
clean frame leaves them, every other record standing. With the phase that begins not offered to the station, the Transmit
Scheduler and the Line Interface stand, that count apart (R28, R34, R56, R82, R87, R106, R134, R140 to R142). -/
def Obligations.CleanFrameAcquires : Prop :=
  ∀ (f : Gather) (s : State),
    EndsWith f .clean s → s.ctr.aligned = false →
    s.stc.station = .listen ∨ s.stc.station = .cold ∨ s.stc.station = .silent →
    (phaseOf f.bytes).val + 1 < s.ctr.table.length → s.ctr.table.length ≤ 64 →
    ∃ t, exec .frameEnd s = .next t ∧
      t.ctr.aligned = true ∧ t.ctr.p.val = (phaseOf f.bytes).val + 1 ∧ t.ctr.c = cycleOf f.bytes ∧ t.ctr.whole = false ∧
      t.ctr.hold = false ∧ t.ctr.skip = .running 2 ∧
      (s.stc.station = .silent → t.stc = s.stc ∧ t.lif = s.lif ∧ t.txs = s.txs) ∧
      (s.stc.station ≠ .silent →
        t.stc = { s.stc with station := .active, coldAttempts := 0, stationCause := true } ∧ t.lif.echoFailures = 0 ∧
        t.ctr.coldWait = none ∧
        (NotOffered (phaseAfter (phaseOf f.bytes)) .active s →
          t.lif = { s.lif with echoFailures := 0 } ∧ t.txs = s.txs)) ∧
      t.flt = countErrors (counted s.cfg.selection .clean (patternErrors f)) s.flt ∧
      t.rxu = { s.rxu with segBuf := [] } ∧
      ∀ a : Addr, t.pmn.marks[a] = (s.pmn.marks[a] || decide (a = senderOf f.bytes)) ∧
        t.pmn.peers[a] = notedPeer f .clean s.cfg.qualityCapture a s.pmn.peers[a]

/-- A clean frame in step with p and c, inside a cycle: the phase ends, HOLD ends, and the sender's record takes heard credit
and loses its mismatch flag; a FILL or COLD frame also gives it its pattern error count and quality, with a captured change
flagged, and a DATA frame does not. A frame that the Receive Unit does not take - FILL, COLD, DATA for another station, DATA
begun while UNALIGNED - leaves the Receive Unit and the Station Controller as they are, and records nothing; and with the phase
that begins not offered to the station, nothing else changes, the Transmit Scheduler and the Line Interface standing with the
rest (R28, R31, R38, R43, R82, R87, R106, R134, R140 to R142, R157). -/
def Obligations.CleanFrameInStep : Prop :=
  ∀ (f : Gather) (s : State), InStep f s →
    ∃ t, exec .frameEnd s = .next t ∧
      t.ctr.p = phaseAfter s.ctr.p ∧ t.ctr.c = s.ctr.c ∧ t.ctr.aligned = true ∧ t.ctr.whole = s.ctr.whole ∧
      t.ctr.hold = false ∧ t.ctr.skip = .running 2 ∧
      (kindOf f.bytes = some .data ↔ patternErrors f = none) ∧
      (∀ a : Addr, t.pmn.marks[a] = (s.pmn.marks[a] || decide (a = senderOf f.bytes)) ∧
        t.pmn.peers[a] = notedPeer f .clean s.cfg.qualityCapture a s.pmn.peers[a]) ∧
      (¬ Taken f s →
        t.ctr = { s.ctr with p := phaseAfter s.ctr.p, hold := false, skip := .running 2 } ∧ t.stc = s.stc ∧
        t.rxu = { s.rxu with segBuf := [] } ∧
        t.flt = countErrors (counted s.cfg.selection .clean (patternErrors f)) s.flt ∧
        (kindOf f.bytes = some .data → t.flt = s.flt) ∧
        (NotOffered (phaseAfter s.ctr.p) s.stc.station s →
          t.fru = { s.fru with frame := none } ∧ SameOutside [.ctr, .pmn, .flt, .rxu, .fru] s t))

/-- A clean frame whose phase or cycle differs from p and c realigns: SLIP is recorded with its sender, the p and c held
before, and its first 8 bytes; the next phase begins from the corrected values; the whole-cycle flag and HOLD are clear; the
sender earns heard credit, with its mismatch flag and quality as any clean frame leaves them, every other record standing; and
of a frame that the Receive Unit does not take, nothing else is recorded. One that it takes is handled as in step, and its
SEQUENCE and NO_SPACE follow the SLIP with the corrected p and c, or come before it with those held before: the model's choice
where R150 and R152 leave both open (logs 6, 11). A STOPPING kind among them leads an ACTIVE station to SILENT, with STATION
pending and its contexts returned to QUEUED; with none the station stands, and the Transmit Scheduler and the Line Interface
with it where the phase that begins is not offered (R28, R38, R43, R58, R65, R82, R87, R102, R106, R109 to R115, R120, R134,
R140 to R142, R152). That the station is then in SILENT, realigned, before the phase start of the same frame end, also where
an own phase follows, is read by the model from R28 and R58 (log 10). -/
def Obligations.RealignmentSlips : Prop :=
  ∀ (f : Gather) (s : State),
    EndsWith f .clean s → s.ctr.aligned = true → s.stc.station = .active ∨ s.stc.station = .silent →
    phaseOf f.bytes ≠ s.ctr.p ∨ cycleOf f.bytes ≠ s.ctr.c → (phaseOf f.bytes).val + 1 < s.ctr.table.length →
    s.ctr.table.length ≤ 64 →
    ∃ t, exec .frameEnd s = .next t ∧
      t.ctr.aligned = true ∧ t.ctr.p.val = (phaseOf f.bytes).val + 1 ∧ t.ctr.c = cycleOf f.bytes ∧ t.ctr.whole = false ∧
      t.ctr.hold = false ∧ t.ctr.skip = .running 2 ∧
      (∀ a : Addr, t.pmn.marks[a] = (s.pmn.marks[a] || decide (a = senderOf f.bytes)) ∧
        t.pmn.peers[a] = notedPeer f .clean s.cfg.qualityCapture a s.pmn.peers[a]) ∧
      (hasKind t.flt.flags .slip = true ↔ hasKind s.flt.flags .slip = true ∨ hasKind s.cfg.masks .slip = false) ∧
      (¬ Taken f s →
        t.flt = recorded s.cfg.masks ⟨.slip, some (senderOf f.bytes), none, s.ctr.p, s.ctr.c, f.bytes.take 8⟩
          (countErrors (counted s.cfg.selection .clean (patternErrors f)) s.flt) ∧
        t.rxu = { s.rxu with segBuf := [] } ∧ StationAfter (Stops .slip s) (phaseAfter (phaseOf f.bytes)) s t) ∧
      (Taken f s →
        let slip : FirstFault := ⟨.slip, some (senderOf f.bytes), none, s.ctr.p, s.ctr.c, f.bytes.take 8⟩
        ∃ kinds,
          Handled f (s.rxu.segBuf.take (lengthOf f.bytes)) { s.rxu with segBuf := [] } t.rxu kinds ∧
          (t.flt = recordedAll s.cfg.masks (slip :: kinds.map (frameFault f (phaseOf f.bytes) (cycleOf f.bytes))) s.flt ∨
            t.flt = recordedAll s.cfg.masks (kinds.map (frameFault f s.ctr.p s.ctr.c) ++ [slip]) s.flt) ∧
          StationAfter (Stops .slip s ∨ ∃ k ∈ kinds, Stops k s) (phaseAfter (phaseOf f.bytes)) s t)

/-- A taken DATA frame that the Receive Unit keeps, or drops as an orphan: a whole message becomes a delivery record, a first
segment opens an entry, a continuation that agrees with its entry advances it or completes its message, and a continuation
without an entry changes nothing and raises nothing. In each the station stands, and the Transmit Scheduler and the Line
Interface with it where the phase that begins is not offered (R28, R82, R87, R109, R111, R112, R114, R115, R124). -/
def Obligations.TakenFrameKept : Prop :=
  ∀ (f : Gather) (s : State), TakenInStep f s →
    let a := senderOf f.bytes
    let k := classOf f.bytes
    let payload := s.rxu.segBuf.take (lengthOf f.bytes)
    let broadcast := destinationOf f.bytes == 0xFF
    ∃ t, exec .frameEnd s = .next t ∧
      ((∀ e ∈ s.rxu.table, ¬ (e.sender = a ∧ e.cls = k)) →
        (indexOf f.bytes = 0 → lastOf f.bytes = true → 1 ≤ s.rxu.free → s.rxu.delivery.length < 16 →
          t.rxu = { s.rxu with segBuf := [], free := s.rxu.free - 1, quiet := 0,
                               delivery := s.rxu.delivery ++
                                 [⟨a, k, broadcast, lengthOf f.bytes, [payload], cycleOf f.bytes⟩] } ∧
          t.flt = s.flt ∧ StationAfter False (phaseAfter s.ctr.p) s t) ∧
        (indexOf f.bytes = 0 → lastOf f.bytes = false → 1 ≤ s.rxu.free → s.rxu.table.length < 8 →
          t.rxu = { s.rxu with segBuf := [], free := s.rxu.free - 1, table := t.rxu.table } ∧
          (∀ e, e ∈ t.rxu.table ↔ e ∈ s.rxu.table ∨ e = ⟨a, k, numberOf f.bytes, broadcast, 1, [payload], 0⟩) ∧
          t.flt = s.flt ∧ StationAfter False (phaseAfter s.ctr.p) s t) ∧
        (1 ≤ indexOf f.bytes → t.rxu = { s.rxu with segBuf := [] } ∧ t.flt = s.flt ∧ StationAfter False (phaseAfter s.ctr.p) s t)) ∧
      ∀ e, findEntry a k s.rxu = some e → 1 ≤ indexOf f.bytes → e.next = indexOf f.bytes → e.number = numberOf f.bytes →
        1 ≤ s.rxu.free →
        (lastOf f.bytes = false →
          t.rxu = { s.rxu with segBuf := [], free := s.rxu.free - 1, table := t.rxu.table } ∧
          (∀ x, x ∈ t.rxu.table ↔ (x ∈ s.rxu.table ∧ ¬ (x.sender = a ∧ x.cls = k)) ∨
            x = { e with next := e.next + 1, blocks := e.blocks ++ [payload], age := 0 }) ∧
          t.flt = s.flt ∧ StationAfter False (phaseAfter s.ctr.p) s t) ∧
        (lastOf f.bytes = true → s.rxu.delivery.length < 16 →
          t.rxu = { s.rxu with
            segBuf := [], free := s.rxu.free - 1, quiet := 0,
            table := s.rxu.table.filter fun x => !(x.sender == a && x.cls == k),
            delivery := s.rxu.delivery ++
              [⟨a, k, e.broadcast, 64 * e.next + lengthOf f.bytes, e.blocks ++ [payload], cycleOf f.bytes⟩] } ∧
          t.flt = s.flt ∧ StationAfter False (phaseAfter s.ctr.p) s t)

/-- A taken DATA frame that costs a message: a continuation that contradicts its entry, or a new segment 0, discards the entry
with SEQUENCE, and the new segment 0 is then handled as without an entry; a segment that finds no room raises NO_SPACE and is
dropped, and with it the entry it continued. The occurrence carries the frame's sender, p and c before the advance and 8 bytes
(R109, R111, R113 to R115, R120, R152), and a STOPPING one of either kind leads an ACTIVE station to SILENT, with STATION
pending and its contexts returned to QUEUED; with none the station stands, and the Transmit Scheduler and the Line Interface
with it where the phase that begins is not offered (R28, R58, R65, R82, R87, R102). That a STOPPING one has the station in
SILENT before the phase start of the same frame end, also where an own phase follows, is read by the model from R28 and R58
(log 10). -/
def Obligations.TakenFrameLost : Prop :=
  ∀ (f : Gather) (s : State), TakenInStep f s →
    let a := senderOf f.bytes
    let k := classOf f.bytes
    let payload := s.rxu.segBuf.take (lengthOf f.bytes)
    let broadcast := destinationOf f.bytes == 0xFF
    let without := s.rxu.table.filter fun x => !(x.sender == a && x.cls == k)
    let freed := ((s.rxu.table.filter fun x => x.sender == a && x.cls == k).map fun x => x.blocks.length).sum
    let occurrence := fun kind => (⟨kind, some a, none, s.ctr.p, s.ctr.c, f.bytes.take 8⟩ : FirstFault)
    ∃ t, exec .frameEnd s = .next t ∧
      (∀ e, findEntry a k s.rxu = some e → 1 ≤ indexOf f.bytes →
        e.next ≠ indexOf f.bytes ∨ e.number ≠ numberOf f.bytes →
        t.rxu = { s.rxu with segBuf := [], table := without, free := s.rxu.free + freed } ∧
        t.flt = recorded s.cfg.masks (occurrence .sequence) s.flt ∧
        StationAfter (Stops .sequence s) (phaseAfter s.ctr.p) s t) ∧
      (∀ e, findEntry a k s.rxu = some e → 1 ≤ indexOf f.bytes → e.next = indexOf f.bytes →
        e.number = numberOf f.bytes → s.rxu.free = 0 ∨ (lastOf f.bytes = true ∧ 16 ≤ s.rxu.delivery.length) →
        t.rxu = { s.rxu with segBuf := [], table := without, free := s.rxu.free + freed } ∧
        t.flt = recorded s.cfg.masks (occurrence .noSpace) s.flt ∧
        StationAfter (Stops .noSpace s) (phaseAfter s.ctr.p) s t) ∧
      (findEntry a k s.rxu = none → indexOf f.bytes = 0 →
        s.rxu.free = 0 ∨ (lastOf f.bytes = true ∧ 16 ≤ s.rxu.delivery.length) ∨
          (lastOf f.bytes = false ∧ 8 ≤ s.rxu.table.length) →
        t.rxu = { s.rxu with segBuf := [] } ∧ t.flt = recorded s.cfg.masks (occurrence .noSpace) s.flt ∧
        StationAfter (Stops .noSpace s) (phaseAfter s.ctr.p) s t) ∧
      (∀ e, findEntry a k s.rxu = some e → indexOf f.bytes = 0 → ReassemblyWf s →
        (lastOf f.bytes = false →
          t.rxu = { s.rxu with segBuf := [], table := t.rxu.table, free := s.rxu.free + freed - 1 } ∧
          (∀ x, x ∈ t.rxu.table ↔ x ∈ without ∨ x = ⟨a, k, numberOf f.bytes, broadcast, 1, [payload], 0⟩) ∧
          t.flt = recorded s.cfg.masks (occurrence .sequence) s.flt ∧
          StationAfter (Stops .sequence s) (phaseAfter s.ctr.p) s t) ∧
        (lastOf f.bytes = true → s.rxu.delivery.length < 16 →
          t.rxu = { s.rxu with segBuf := [], table := without, free := s.rxu.free + freed - 1, quiet := 0,
                               delivery := s.rxu.delivery ++
                                 [⟨a, k, broadcast, lengthOf f.bytes, [payload], cycleOf f.bytes⟩] } ∧
          t.flt = recorded s.cfg.masks (occurrence .sequence) s.flt ∧
          StationAfter (Stops .sequence s) (phaseAfter s.ctr.p) s t) ∧
        (lastOf f.bytes = true → 16 ≤ s.rxu.delivery.length →
          t.rxu = { s.rxu with segBuf := [], table := without, free := s.rxu.free + freed } ∧
          t.flt = recorded s.cfg.masks (occurrence .noSpace) (recorded s.cfg.masks (occurrence .sequence) s.flt) ∧
          StationAfter (Stops .sequence s ∨ Stops .noSpace s) (phaseAfter s.ctr.p) s t))

/-- The frame end of the station's own COLD frame after ECHO CLEAN: the station is ALIGNED in the phase after its lowest owned
phase, in cycle 0, and in ACTIVE with its counts 0 and STATION pending; nothing is recorded or taken (R11, R35, R52, R56). An
own frame that ends inside a cycle, with the next phase not offered, ends its phase and nothing more; while UNALIGNED with no
alignment pending it ends no phase (R11, R27, R30, R31). -/
def Obligations.OwnFrameEnds : Prop :=
  ∀ (f : Gather) (s : State), s.fru.frame = some f → f.begun = true → f.own = true → LineFree s →
    (∀ p : Fin 64,
      s.stc.station = .cold → s.ctr.coldAlignPending = true →
      (s.ctr.table[p.val]?.map PhaseEntry.owner) = some s.cfg.ownAddress →
      (∀ q < p, (s.ctr.table[q.val]?.map PhaseEntry.owner) ≠ some s.cfg.ownAddress) →
      p.val + 1 < s.ctr.table.length → s.ctr.table.length ≤ 64 →
      ∃ t, exec .frameEnd s = .next t ∧
        t.ctr.aligned = true ∧ t.ctr.p.val = p.val + 1 ∧ t.ctr.c = 0 ∧ t.ctr.whole = false ∧ t.ctr.hold = false ∧
        t.ctr.coldAlignPending = false ∧
        t.stc = { s.stc with station := .active, coldAttempts := 0, stationCause := true } ∧ t.lif.echoFailures = 0 ∧
        t.flt = s.flt ∧ t.pmn = s.pmn ∧ t.rxu = { s.rxu with segBuf := [] }) ∧
    (s.ctr.coldAlignPending = false → MidCycle s → s.ctr.p.val < 63 →
      (s.ctr.table[s.ctr.p.val + 1]?.map PhaseEntry.owner) ≠ some s.cfg.ownAddress ∨ s.stc.station ≠ .active ∨
        s.ctr.hold = true →
      exec .frameEnd s = .next { s with
        ctr := { s.ctr with p := Fin.ofNat 64 (s.ctr.p.val + 1), skip := .running 2 }
        fru := { s.fru with frame := none }
        rxu := { s.rxu with segBuf := [] } }) ∧
    (s.ctr.coldAlignPending = false → s.ctr.aligned = false →
      exec .frameEnd s = .next { s with fru := { s.fru with frame := none }, rxu := { s.rxu with segBuf := [] } })

/-! ### The line timers -/

/-- SKIP_EXPIRY inside a cycle, with the next phase not offered to the station: the next phase begins and nothing else changes.
With an edge not yet confirmed the decision waits for its sample, and the FALSE_START then ends the phase. Without a running
timer the command does nothing (R29, R31, R44; log 2). -/
def Obligations.SkipExpiryInsideCycle : Prop :=
  ∀ s : State,
    let after := { s.ctr with p := Fin.ofNat 64 (s.ctr.p.val + 1), skip := .running 2 }
    let notOffered := ((s.ctr.table[s.ctr.p.val + 1]?.map PhaseEntry.owner) ≠ some s.cfg.ownAddress ∨
      s.stc.station ≠ .active ∨ s.ctr.hold = true)
    (∀ ct, MidCycle s → s.ctr.p.val < 63 → s.ctr.skip = .running ct → s.lif.tx = none →
      s.lif.receiver ≠ .character false → s.fru.frame = none → notOffered →
      exec .skipExpiry s = .next { s with ctr := after }) ∧
    (∀ ct, s.ctr.aligned = true → s.ctr.skip = .running ct → s.lif.tx = none → s.lif.receiver = .character false →
      exec .skipExpiry s = .next { s with ctr := { s.ctr with skip := .awaitingSample } }) ∧
    (MidCycle s → s.ctr.p.val < 63 → s.ctr.skip = .awaitingSample → s.lif.tx = none →
      s.lif.receiver = .character false → s.lif.frameEndDue = false → s.fru.frame = none → notOffered →
      exec .falseStart s = .next { s with ctr := after, lif := { s.lif with receiver := .idle } }) ∧
    ((∀ ct, s.ctr.skip ≠ .running ct) ∨ s.ctr.aligned = false → exec .skipExpiry s = .next s)

/-- The end of phase L - 1 is a cycle boundary, in every order of the blocks (log 6): by a skip expiry, at once or at the
false start it waited for, by the frame end of an own frame, of one with a fault, or of a clean one in step, realigning or
acquiring alignment. Phase 0 of the next cycle begins, the whole-cycle flag is set, HOLD and the heard marks are clear; the
line errors and the report period are counted, and the N-th boundary moves the counter into the snapshot; the frame's own
fault and an AGED for each entry that leaves are recorded, AGED with phase 0 and the new cycle number; and with no frame
taken, entries that reach the age limit or whose sender moves into ABSENT leave with their pool blocks, every other one is one
older, and the quiet counter counts; that a clear quiet flag stays clear where the counter already stands at Q is the model's
choice (log 28). Where phase 0 is no own phase, or the station is not in ACTIVE, the Transmit Scheduler and the Line Interface
stand. With a frame taken, its own fault, its handling, the aging and the notices of peer loss reach the Receive Unit and the
Fault Unit in one of their orders, the table by ascending key (log 16), its SEQUENCE and NO_SPACE naming phase L - 1 of the
cycle just ended; a whole message in one segment is delivered in every order. A STOPPING fault of the frame or of aging has
the station in SILENT before the phase start (log 10), with STATION pending and its contexts returned to QUEUED; one of a peer
loss may come after it and then waits for the cut (R28, R31 to R35, R38, R43, R56, R58, R59, R109 to R118, R124, R125, R134 to
R136, R139, R150, R152, R157, R159, R161). -/
def Obligations.CycleBoundary : Prop :=
  ∀ (i : Instr) (w : Ending) (s : State), BoundaryEnd s i w → (∀ e ∈ s.rxu.table, e.age < s.cfg.ageLimit) →
    ∃ t, exec i s = .next t ∧
      (t.ctr.p = 0 ∧ t.ctr.c = w.cycle + 1 ∧ t.ctr.aligned = true ∧ t.ctr.whole = true ∧ t.ctr.hold = false ∧
        t.ctr.skip = .running 2) ∧
      (NotOffered 0 w.stc.station s →
        LineStands i w s t ∧ t.txs = if t.stc.station = w.stc.station then s.txs else contextsReturned s.txs) ∧
      (t.stc.station ≠ w.stc.station →
        t.stc = { w.stc with station := .silent, stationCause := true, pendingExit := t.stc.pendingExit } ∧
          t.txs = contextsReturned t.txs) ∧
      (∀ a : Addr, w.heard ≠ some a → t.pmn.marks[a] = false) ∧
      (∀ a : Addr, w.heard = some a → t.pmn.peers[a].lastHeard = some w.cycle) ∧
      (¬ (s.cfg.reportMode = .periodic ∧ s.flt.period + 1 = s.cfg.reportPeriod) →
        t.flt = { countErrors w.errors s.flt with
          flags := t.flt.flags, first := t.flt.first
          period := if s.cfg.reportMode = .periodic then s.flt.period + 1 else s.flt.period }) ∧
      (s.cfg.reportMode = .periodic → s.flt.period + 1 = s.cfg.reportPeriod →
        (let x := countErrors w.errors s.flt
         t.flt = { flags := t.flt.flags, first := t.flt.first, lineErrors := 0, liveOverflow := false,
                   snapshot := x.lineErrors, snapOverflow := x.liveOverflow, reportReady := true, period := 0 }) ∨
        t.flt = countErrors w.errors
          { flags := t.flt.flags, first := t.flt.first, lineErrors := 0, liveOverflow := false,
            snapshot := s.flt.lineErrors, snapOverflow := s.flt.liveOverflow, reportReady := true, period := 0 }) ∧
      (w.took = none →
        let leaves : Entry → Prop := fun e => AgesOut s e ∨ Lost s t e.sender
        let aged : Entry → FirstFault := fun e => ⟨.aged, some e.sender, some e.cls, 0, w.cycle + 1, []⟩
        (∀ x, x ∈ t.rxu.table ↔ ∃ e ∈ s.rxu.table, ¬ leaves e ∧ x = { e with age := e.age + 1 }) ∧
        t.rxu.free + entryBlocks t.rxu.table = s.rxu.free + entryBlocks s.rxu.table ∧
        t.rxu.segBuf = (if i = .frameEnd then [] else s.rxu.segBuf) ∧ t.rxu.delivery = s.rxu.delivery ∧
        (s.rxu.delivery = [] → t.rxu.quiet = s.rxu.quiet ∧ t.rxu.quietFlag = s.rxu.quietFlag) ∧
        (s.rxu.delivery ≠ [] → s.rxu.quiet < s.cfg.quietLimit →
          t.rxu.quiet = s.rxu.quiet + 1 ∧
            t.rxu.quietFlag = (s.rxu.quietFlag || decide (s.rxu.quiet + 1 = s.cfg.quietLimit))) ∧
        (s.rxu.delivery ≠ [] → s.cfg.quietLimit ≤ s.rxu.quiet →
          t.rxu.quiet = s.rxu.quiet ∧ t.rxu.quietFlag = s.rxu.quietFlag) ∧
        (∀ k : FaultKind, hasKind t.flt.flags k = true ↔
          hasKind s.flt.flags k = true ∨
            (hasKind s.cfg.masks k = false ∧
              (w.fault.map FirstFault.kind = some k ∨ (k = .aged ∧ ∃ e ∈ s.rxu.table, leaves e)))) ∧
        (∀ r, s.flt.first = some r → t.flt.first = some r) ∧
        (s.flt.first = none →
          (t.flt.first = none ↔
            (∀ o, w.fault = some o → hasKind s.cfg.masks o.kind = true) ∧
              (hasKind s.cfg.masks .aged = true ∨ ∀ e ∈ s.rxu.table, ¬ leaves e)) ∧
          ∀ r, t.flt.first = some r → hasKind s.cfg.masks r.kind = false ∧
            (w.fault = some r ∨ ∃ e ∈ s.rxu.table, leaves e ∧ r = aged e ∧
              (ReassemblyWf s → FirstOf (AgesOut s) s e ∨ FirstOf (fun x => Lost s t x.sender) s e))) ∧
        (s.stc.station ≠ .config →
          (∃ o, w.fault = some o ∧ Stops o.kind s) ∨ (Stops .aged s ∧ ∃ e ∈ s.rxu.table, AgesOut s e) →
          StoppedFrom w.stc s t ∧ LineStands i w s t) ∧
        ((∀ o, w.fault = some o → ¬ Stops o.kind s) → (Stops .aged s → ∀ e ∈ s.rxu.table, ¬ leaves e) →
          t.stc = w.stc) ∧
        (s.stc.station ≠ .config → Stops .aged s → (∃ e ∈ s.rxu.table, leaves e) →
          t.stc.station = .silent ∨ (t.stc.pendingExit ≠ none ∧ t.lif.tx ≠ none))) ∧
      (∀ f, w.took = some f → ReassemblyWf s →
        ∃ order os, order.Perm [.fault, .frame, .aging, .loss] ∧
          Steps (BoundaryStep w s t) order ({ s.rxu with segBuf := [] }, []) (t.rxu, os) ∧
          t.flt.flags = (recordedAll s.cfg.masks os s.flt).flags ∧ t.flt.first = (recordedAll s.cfg.masks os s.flt).first ∧
          ((∃ o ∈ os, o.kind ≠ .aged ∧ Stops o.kind s) → StoppedFrom w.stc s t ∧ LineStands i w s t) ∧
          ((∃ o ∈ os, Stops o.kind s) →
            t.stc.station = .silent ∨ (t.stc.pendingExit ≠ none ∧ t.lif.tx ≠ none)) ∧
          ((∀ o ∈ os, ¬ Stops o.kind s) → t.stc = w.stc)) ∧
      (∀ f, w.took = some f → indexOf f.bytes = 0 → lastOf f.bytes = true → 1 ≤ s.rxu.free →
        s.rxu.delivery.length < 16 →
        (∀ e ∈ s.rxu.table, ¬ (e.sender = senderOf f.bytes ∧ e.cls = classOf f.bytes)) →
        t.rxu.delivery = s.rxu.delivery ++
          [⟨senderOf f.bytes, classOf f.bytes, destinationOf f.bytes == 0xFF, lengthOf f.bytes,
            [s.rxu.segBuf.take (lengthOf f.bytes)], cycleOf f.bytes⟩] ∧
        (t.rxu.quiet = 0 ∨ t.rxu.quiet = 1))

/-- The presence of every record after a boundary, in every order of the blocks (log 6): a partial cycle evaluates nothing;
after a whole one a SELF or NOT_SCHEDULED record is unchanged, and a scheduled one moves by the table of its policy, with the
credit of the frame that ends the cycle counted before or after (R133, R135 to R138); the rest of the record is as that frame's
notices leave it (R134, R140 to R142). A presence that takes a new value sets
the presence-changed flag under ANY, and under LOSS where the new value is ABSENT; a flag already set stays set (R142). -/
def Obligations.PresenceEvaluation : Prop :=
  ∀ (i : Instr) (w : Ending) (s : State) (a : Addr), BoundaryEnd s i w →
    ∃ t heard, exec i s = .next t ∧ (heard = s.pmn.marks[a] ∨ (w.heard = some a ∧ heard = true)) ∧
      let r := s.pmn.peers[a]
      let x := t.pmn.peers[a]
      (x.owned = r.owned ∧
        x.presenceChanged = (r.presenceChanged ||
          (decide (x.presence ≠ r.presence) && (s.cfg.presenceCapture == .any || x.presence == .absent)))) ∧
      (w.whole = false ∨ r.presence = .self ∨ r.presence = .notScheduled →
        (x.presence, x.silentRun, x.returnRun) = (r.presence, r.silentRun, r.returnRun)) ∧
      ((∀ f outcome, ¬ (i = .frameEnd ∧ EndsWith f outcome s)) →
        x = { r with presence := x.presence, silentRun := x.silentRun, returnRun := x.returnRun,
                     presenceChanged := x.presenceChanged }) ∧
      (∀ f outcome, i = .frameEnd → EndsWith f outcome s →
        x = { notedPeer f outcome s.cfg.qualityCapture a r with
              presence := x.presence, silentRun := x.silentRun, returnRun := x.returnRun,
              presenceChanged := x.presenceChanged }) ∧
      (w.whole = true → s.cfg.presence = .tolerant →
        (r.presence = .unseen → heard = true → (x.presence, x.silentRun, x.returnRun) = (.present, 0, r.returnRun)) ∧
        (r.presence = .unseen → heard = false →
          (x.presence, x.silentRun, x.returnRun) =
            (if r.silentRun + 1 = 2 then .absent else .unseen, r.silentRun + 1, r.returnRun)) ∧
        (r.presence = .present → heard = true → (x.presence, x.silentRun, x.returnRun) = (.present, 0, r.returnRun)) ∧
        (r.presence = .present → heard = false → (x.presence, x.silentRun, x.returnRun) = (.fading, 1, r.returnRun)) ∧
        (r.presence = .fading → heard = true → (x.presence, x.silentRun, x.returnRun) = (.present, 0, r.returnRun)) ∧
        (r.presence = .fading → heard = false → (x.presence, x.silentRun, x.returnRun) = (.absent, 2, r.returnRun)) ∧
        (r.presence = .absent → r.returnRun = 0 → heard = true →
          (x.presence, x.silentRun, x.returnRun) = (.absent, 0, 1)) ∧
        (r.presence = .absent → r.returnRun = 0 → heard = false →
          (x.presence, x.silentRun, x.returnRun) = (.absent, min 2 (r.silentRun + 1), 0)) ∧
        (r.presence = .absent → r.returnRun = 1 → heard = true →
          (x.presence, x.silentRun, x.returnRun) = (.present, 0, 0)) ∧
        (r.presence = .absent → r.returnRun = 1 → heard = false →
          (x.presence, x.silentRun, x.returnRun) = (.absent, 1, 0))) ∧
      (w.whole = true → s.cfg.presence = .strict →
        (r.presence ≠ .self → r.presence ≠ .notScheduled → heard = true →
          (x.presence, x.silentRun, x.returnRun) = (.present, 0, r.returnRun)) ∧
        (r.presence = .unseen ∨ r.presence = .present → heard = false →
          (x.presence, x.silentRun, x.returnRun) = (.absent, 1, r.returnRun)) ∧
        (r.presence = .fading → heard = false → (x.presence, x.silentRun, x.returnRun) = (.absent, 2, r.returnRun)) ∧
        (r.presence = .absent → heard = false →
          (x.presence, x.silentRun, x.returnRun) = (.absent, min 2 (r.silentRun + 1), r.returnRun)))

/-- An own phase offered to a station with nothing admitted in its queues: a FILL frame of this phase and cycle starts, with
the pending test insertions, and the contexts stand; with the receiver not in IDLE the frame is withheld, and nothing of it is
built. So at every phase end, inside a cycle and at its boundary, by a skip expiry and by a frame end of any kind, for a
station that is in ACTIVE after it (R6, R15, R22, R28, R31, R88, R98); a skip expiry inside a cycle changes nothing else.
While a frame is sent LDE is high and LTX shows its characters one after another without a gap, each a start bit at 0, the
data bits from bit 0 up and a stop bit at 1; with the driver OFF, LDE is low and LTX is at 1 (R2, R6). -/
def Obligations.OwnPhaseSendsFill : Prop :=
  (∀ (e : PhaseEntry) (s : State), OffersOwn e s → (∀ k : Cls, k ≤ e.floor → s.txs.queues[k] = []) →
    SendsFill .skipExpiry (advancedCtr s) s) ∧
  (∀ (i : Instr) (n : Phase) (w : Ending) (e : PhaseEntry) (s : State),
    BeginsOwn i n w e s → s.txs.inFlight = none → (∀ k : Cls, k ≤ e.floor → s.txs.queues[k] = []) →
    let (p, c) := beginsAfter n w s
    ∃ t, exec i s = .next t ∧ t.ctr.aligned = true ∧ t.ctr.p = p ∧ t.ctr.c = c ∧ t.ctr.skip = .running 2 ∧
      (t.stc.station = .active →
        t.txs = { s.txs with inFlight := t.txs.inFlight } ∧
        (IdleAtStart i s → FillStarted p c s t) ∧ (¬ IdleAtStart i s → Withheld s t))) ∧
  (∀ s : State, s.lif.tx = none → lde s = false ∧ ∀ n, ltx s n = true) ∧
  ∀ (x : Transmission) (s : State), s.lif.tx = some x →
    lde s = true ∧ (∀ j b, x.bytes[j]? = some b → ShowsCharacter s (10 * j) b) ∧
      ∀ n, 10 * x.bytes.length ≤ n → ltx s n = true

/-- An own phase offered to a station whose candidate is `m`. Not unreachable: the contexts are kept, popped, started, or
pushed and started, whether or not the frame is then sent; the DATA frame of the message's next segment starts, with its
fields and any pending CRC insertion; under the last-segment hold, a last segment with 16 completion records, FILL is sent
instead; and with the receiver not in IDLE the frame is withheld. Unreachable under DISCARD: with a completion place the
message leaves as UNREACHABLE and the selection begins again, and with none FILL is sent and everything stands. So at every
phase end, inside a cycle and at its boundary, by a skip expiry and by a frame end of any kind, for a station that is in
ACTIVE after it; at a boundary the selection reads the peer records before or after their evaluation (R91; log 6). A skip
expiry inside a cycle changes nothing else (R15, R22, R28, R31, R88 to R97, R100). The premise is the order of the contexts
that every step keeps. -/
def Obligations.OwnPhaseSendsSegment : Prop :=
  (∀ (e : PhaseEntry) (m : Message) (k : Cls) (s : State),
    ContextInv s → OffersOwn e s → k ≤ e.floor → s.txs.queues[k].head? = some m →
    (∀ j : Cls, j < k → s.txs.queues[j] = []) →
    let held := lastNext m = true ∧ 16 ≤ s.txs.completions.length
    let ctr := advancedCtr s
    (¬ Unreachable m s →
      ∃ t, exec .skipExpiry s = .next t ∧ Settled m k s t ∧ t.ctr = ctr ∧ SameOutside [.lif, .fru, .ctr, .txs] s t ∧
        t.lif = { s.lif with tx := t.lif.tx } ∧
        (s.lif.receiver = .idle → ¬ held → DataStarted m k ctr.p ctr.c s t) ∧
        (s.lif.receiver = .idle → held → FillStarted ctr.p ctr.c s t) ∧
        (s.lif.receiver ≠ .idle → Withheld s t)) ∧
    (Unreachable m s → s.txs.completions.length < 16 →
      exec .skipExpiry s = exec .skipExpiry (withoutMessage m s) ∧ OffersOwn e (withoutMessage m s) ∧
        ContextInv (withoutMessage m s)) ∧
    (Unreachable m s → 16 ≤ s.txs.completions.length → SendsFill .skipExpiry ctr s)) ∧
  ∀ (i : Instr) (n : Phase) (w : Ending) (e : PhaseEntry) (m : Message) (k : Cls) (s : State),
    ContextInv s → BeginsOwn i n w e s → k ≤ e.floor → s.txs.queues[k].head? = some m →
    (∀ j : Cls, j < k → s.txs.queues[j] = []) →
    let (p, c) := beginsAfter n w s
    let held := lastNext m = true ∧ 16 ≤ s.txs.completions.length
    ∃ t read, exec i s = .next t ∧ (read = s.pmn ∨ read = t.pmn) ∧
      t.ctr.aligned = true ∧ t.ctr.p = p ∧ t.ctr.c = c ∧ t.ctr.skip = .running 2 ∧
      (t.stc.station = .active →
        (¬ Unreachable m (s.withPmn read) →
          Settled m k s t ∧ (IdleAtStart i s → ¬ held → DataStarted m k p c s t) ∧
            (IdleAtStart i s → held → FillStarted p c s t) ∧ (¬ IdleAtStart i s → Withheld s t)) ∧
        (Unreachable m (s.withPmn read) → s.txs.completions.length < 16 →
          exec i s = exec i (withoutMessage m s) ∧ ContextInv (withoutMessage m s)) ∧
        (Unreachable m (s.withPmn read) → 16 ≤ s.txs.completions.length →
          t.txs = { s.txs with inFlight := t.txs.inFlight } ∧
            (IdleAtStart i s → FillStarted p c s t) ∧ (¬ IdleAtStart i s → Withheld s t)))

/-- COLD_START_WAIT_EXPIRY in LISTEN: the wait stops and the station enters COLD. With the receiver in IDLE its COLD frame of
the lowest owned phase and cycle 0 starts. Otherwise the frame is withheld: the station stays in COLD while a frame is being
gathered, and returns to LISTEN with a full wait where none is. An own frame of which no start bit was heard is over by then,
and leaves no frame (R5, R6, R11, R39, R41, R51, R54; log 18). An expiry in any other state does nothing (log 2). -/
def Obligations.ColdStartWaitExpiry : Prop :=
  ∀ s : State,
    (s.stc.station = .listen → s.ctr.coldWait ≠ none → s.lif.receiver = .idle →
      ∀ p : Fin 64, (s.ctr.table[p.val]?.map PhaseEntry.owner) = some s.cfg.ownAddress →
        (∀ q < p, (s.ctr.table[q.val]?.map PhaseEntry.owner) ≠ some s.cfg.ownAddress) → s.ctr.table.length ≤ 64 →
        exec .coldStartWaitExpiry s = .next { s with
          ctr := { s.ctr with coldWait := none }
          stc := { s.stc with station := .cold }
          lif := { s.lif with tx := some ⟨shortFrame .cold s.cfg.ownAddress p 0 s.ctr.digest
            ⟨s.fru.testPattern, s.fru.testCrc⟩, 0, false⟩ }
          fru := ⟨some (ownFrame (s.fru.frame.filter Gather.begun)), false, false⟩ }) ∧
    (∀ f, s.stc.station = .listen → s.ctr.coldWait ≠ none → s.lif.receiver ≠ .idle → s.fru.frame = some f →
      f.begun = true →
      exec .coldStartWaitExpiry s =
        .next { s with ctr := { s.ctr with coldWait := none }, stc := { s.stc with station := .cold } }) ∧
    (s.stc.station = .listen → s.ctr.coldWait ≠ none → s.lif.receiver ≠ .idle →
      (∀ f, s.fru.frame = some f → f.begun = false) → (∃ e ∈ s.ctr.table, e.owner = s.cfg.ownAddress) →
      exec .coldStartWaitExpiry s = .next { s with
        ctr := { State.reset.ctr with table := s.ctr.table, digest := s.ctr.digest,
                                      coldWait := some (48 + 8 * s.cfg.ownAddress.val) }
        fru := { s.fru with frame := none } }) ∧
    (s.stc.station ≠ .listen ∨ s.ctr.coldWait = none → exec .coldStartWaitExpiry s = .next s)

/-! ### Transmit outcomes -/

/-- ECHO_CLEAN, with every character of the frame matched: the driver goes OFF. In ACTIVE the echo failure count is 0, a FILL
frame changes nothing more, a segment that is not the last counts as sent, and a last one ends its message as SENT; in COLD an
alignment is pending (R8, R10, R35, R79, R99). A change of state that waits for the cut is made after all this, which drops a
pending alignment, and a waiting soft reset takes effect (R59, R63). With a character not matched the command does nothing
(log 2). -/
def Obligations.EchoClean : Prop :=
  ∀ (x : Transmission) (s : State),
    s.lif.tx = some x →
    ((x.mismatch = true ∨ x.matched < x.bytes.length) → exec .echoClean s = .next s) ∧
    (x.mismatch = false → x.bytes.length ≤ x.matched → s.stc.pendingExit = none → s.stc.softReset ≠ .waiting →
      (s.stc.station = .cold →
        exec .echoClean s = .next { s with lif := { s.lif with tx := none }
                                           ctr := { s.ctr with coldAlignPending := true } }) ∧
      (s.stc.station = .active → ContextInv s →
        ∃ t, exec .echoClean s = .next t ∧ t.lif = { s.lif with tx := none, echoFailures := 0 } ∧
          t.txs.inFlight = none ∧ t.txs.stack = s.txs.stack ∧ t.txs.numbers = s.txs.numbers ∧
          t.txs.staging = s.txs.staging ∧
          (s.txs.inFlight = none ∨ s.txs.inFlight = some .fill → t.txs = { s.txs with inFlight := none }) ∧
          (∀ tag index, s.txs.inFlight = some (.data tag index false) →
            t.txs.queues = s.txs.queues.map (fun q => q.map fun m =>
              if m.tag = tag then { m with state := .started (m.number.getD 0) (index + 1) } else m) ∧
            t.txs.current = s.txs.current ∧ t.txs.free = s.txs.free ∧ t.txs.completions = s.txs.completions) ∧
          (∀ tag index m, s.txs.inFlight = some (.data tag index true) → (∃ j : Cls, m ∈ s.txs.queues[j]) → m.tag = tag →
            t.txs.queues = s.txs.queues.map (fun q => q.filter fun y => y.tag != tag) ∧ t.txs.current = none ∧
            t.txs.free = s.txs.free + m.blocks.length ∧
            t.txs.completions = s.txs.completions ++ [⟨tag, m.cls, .sent⟩]) ∧
          t.lpt = { s.lpt with subReq := subLevel s.cfg.subMode s.lpt.subReq t.txs.free } ∧
          SameOutside [.lif, .txs, .lpt] s t)) ∧
    (∀ e, x.mismatch = false → x.bytes.length ≤ x.matched → s.stc.pendingExit = some e → s.stc.softReset ≠ .waiting →
      s.stc.station = .cold ∨ s.stc.station = .active →
      ∃ u t, exec .echoClean (withoutExit s) = .next u ∧ exec .echoClean s = .next t ∧ Entered e u t) ∧
    (x.mismatch = false → x.bytes.length ≤ x.matched → s.stc.softReset = .waiting →
      exec .echoClean s = exec .softReset s)

/-- ECHO_FAILURE, with ECHO masked or NOTED: the driver goes OFF and the ECHO fault carries the own address, p and c, and the
first 8 intended bytes. In ACTIVE the count rises and HOLD is set, and the fourth one in a row moves the station to SILENT
with its contexts returned; in COLD the attempt counts and the station returns to LISTEN, and the eighth one moves it to
SILENT (R8, R10, R42, R53, R57, R100, R102, R152, R153). A change of state that waits for the cut is made after all this,
unless the failure has already moved the station to SILENT; a LEAVE is made in either case; and a waiting soft reset takes
effect and keeps the recorded fault (R59, R63). -/
def Obligations.EchoFailure : Prop :=
  ∀ (x : Transmission) (s : State),
    s.lif.tx = some x → x.mismatch = true ∨ x.matched < x.bytes.length → ¬ Stops .echo s →
    (∀ e, s.stc.pendingExit = some e → s.stc.softReset ≠ .waiting → s.stc.station = .active ∨ s.stc.station = .cold →
      ∃ u t, exec .echoFailure (withoutExit s) = .next u ∧ exec .echoFailure s = .next t ∧
        (e = .toConfig ∨ u.stc.station ≠ .silent → Entered e u t) ∧ (e = .toSilent → u.stc.station = .silent → t = u)) ∧
    (s.stc.softReset = .waiting →
      ∃ u, exec .echoFailure (withoutExit s) = .next u ∧ exec .echoFailure s = exec .softReset (resetWaiting u)) ∧
    (s.stc.pendingExit = none → s.stc.softReset ≠ .waiting →
      ∃ t, exec .echoFailure s = .next t ∧ t.lif.tx = none ∧ t.lif.receiver = s.lif.receiver ∧
        t.flt = recorded s.cfg.masks ⟨.echo, some s.cfg.ownAddress, none, s.ctr.p, s.ctr.c, x.bytes.take 8⟩ s.flt ∧
        (s.stc.station = .active ∧ s.lif.echoFailures ≤ 2 →
          t.lif.echoFailures = s.lif.echoFailures + 1 ∧ t.ctr = { s.ctr with hold := true } ∧ t.stc = s.stc ∧
          t.txs = { s.txs with inFlight := none }) ∧
        (s.stc.station = .active ∧ s.lif.echoFailures = 3 →
          t.lif.echoFailures = 0 ∧ t.stc.station = .silent ∧ t.stc.stationCause = true ∧
          t.ctr = { s.ctr with hold := false, coldWait := none, coldAlignPending := false } ∧
          t.txs = { s.txs with current := none, stack := [], inFlight := none,
                               queues := s.txs.queues.map fun q => q.map fun m => { m with state := .queued } }) ∧
        (s.stc.station = .cold ∧ s.stc.coldAttempts ≤ 6 →
          t.stc = { s.stc with station := .listen, coldAttempts := s.stc.coldAttempts + 1 } ∧
          t.lif.echoFailures = s.lif.echoFailures ∧
          t.ctr = { State.reset.ctr with
            table := s.ctr.table, digest := s.ctr.digest,
            coldWait := if ∃ e ∈ s.ctr.table, e.owner = s.cfg.ownAddress
                        then some (48 + 8 * s.cfg.ownAddress.val) else none } ∧ t.txs = s.txs) ∧
        (s.stc.station = .cold ∧ s.stc.coldAttempts = 7 →
          t.stc.station = .silent ∧ t.stc.coldAttempts = 0 ∧ t.stc.stationCause = true ∧ t.ctr.coldWait = none) ∧
        SameOutside [.lif, .ctr, .stc, .txs, .flt] s t)

/-- ECHO_FAILURE with ECHO unmasked and STOPPING, in both orders of the two reports (log 7): the station ends in SILENT with
STATION pending, HOLD clear, its contexts returned to QUEUED and the ECHO flag set; with a LEAVE waiting for the cut it ends in
CONFIG, with the same flag and contexts; and a waiting soft reset takes effect and keeps the recorded fault (R53, R57, R59, R63,
R102). -/
def Obligations.EchoFailureStops : Prop :=
  ∀ (x : Transmission) (s : State),
    s.lif.tx = some x → x.mismatch = true ∨ x.matched < x.bytes.length → Stops .echo s →
    s.stc.station = .active ∨ s.stc.station = .cold →
    (s.stc.softReset ≠ .waiting →
      ∃ t, exec .echoFailure s = .next t ∧ t.lif.tx = none ∧ t.stc.pendingExit = none ∧
        t.ctr.hold = false ∧ t.ctr.coldWait = none ∧ t.ctr.table = s.ctr.table ∧ hasKind t.flt.flags .echo = true ∧
        t.txs = contextsReturned s.txs ∧
        (s.stc.pendingExit ≠ some .toConfig →
          t.stc.station = .silent ∧ t.stc.stationCause = true ∧
          (s.stc.station = .active → t.ctr.aligned = s.ctr.aligned ∧ t.ctr.p = s.ctr.p ∧ t.ctr.c = s.ctr.c ∧
            t.ctr.whole = s.ctr.whole) ∧
          SameOutside [.lif, .ctr, .stc, .txs, .flt, .freeCount] s t) ∧
        (s.stc.pendingExit = some .toConfig →
          t.stc.station = .config ∧ t.lif.receiver = .off ∧ t.ctr.aligned = false ∧ t.fru = ⟨none, false, false⟩ ∧
          t.rxu.table = [] ∧ t.rxu.delivery = s.rxu.delivery)) ∧
    (s.stc.softReset = .waiting →
      ∃ u, exec .echoFailure (withoutExit s) = .next u ∧ exec .echoFailure s = exec .softReset (resetWaiting u))

/-- CUT, with the driver ON and a change of state waiting for it: the driver goes OFF and LTX returns to 1, nothing sent in the
frame is counted, and the station enters its new state; a waiting soft reset takes effect instead (R7, R59, R63, R101). With no
change of state waiting, or the driver OFF, the command does nothing (log 2). -/
def Obligations.CutEndsExit : Prop :=
  ∀ s : State,
    (s.lif.tx = none → exec .cut s = .next s) ∧
    (s.stc.softReset ≠ .waiting → s.stc.pendingExit = none → exec .cut s = .next s) ∧
    (s.lif.tx ≠ none → s.stc.softReset = .waiting → exec .cut s = exec .softReset s) ∧
    ∀ e, s.lif.tx ≠ none → s.stc.softReset ≠ .waiting → s.stc.pendingExit = some e →
      s.stc.station = .cold ∨ s.stc.station = .active →
      ∃ t, exec .cut s = .next t ∧ t.lif.tx = none ∧ lde t = false ∧ (∀ n, ltx t n = true) ∧
        Entered e { s with lif := { s.lif with tx := none }, txs := { s.txs with inFlight := none } } t

/-! ### The boundary rows -/

/-- ENTRY_AGED: the entry of the key, one boundary from the age limit, is discarded with an AGED fault that carries the
entry's sender and class, phase 0 and the cycle number after the current one, and its pool blocks return; where no entry of
the key stands there, nothing changes (R116, R120, R152). With AGED STOPPING, LISTEN, COLD and ACTIVE go to SILENT; while the
driver is ON the station stays as it is and the change waits for the cut, a LEAVE that already waits standing (R58, R59).
QUIET_LIMIT_REACHED sets the quiet flag with the counter at Q, while records wait, and DLV_REQ follows (R124, R178).
PERIODIC_TRANSFER moves the counter into the snapshot in PERIODIC mode and begins the next period (R159). Each row by itself
is the boundary reaching that one part, while ALIGNED with its counter one below its limit, and elsewhere does nothing: the
model's choice (log 12). -/
def Obligations.BoundaryRows : Prop :=
  (∀ (a : Addr) (k : Cls) (s : State), s.ctr.aligned = true → ReassemblyWf s →
    (∀ e ∈ s.rxu.table, e.sender = a → e.cls = k → e.age + 1 = s.cfg.ageLimit →
      ∃ t, exec (.entryAged a k) s = .next t ∧
        t.rxu = { s.rxu with free := s.rxu.free + e.blocks.length,
                             table := s.rxu.table.filter fun x => !(x.sender == a && x.cls == k) } ∧
        t.flt = recorded s.cfg.masks ⟨.aged, some a, some k, 0, s.ctr.c + 1, []⟩ s.flt ∧
        (¬ Stops .aged s → SameOutside [.rxu, .flt] s t) ∧
        (Stops .aged s → s.stc.station = .config ∨ s.stc.station = .silent → SameOutside [.rxu, .flt] s t) ∧
        (Stops .aged s → s.stc.station = .listen ∨ s.stc.station = .cold ∨ s.stc.station = .active →
          (s.lif.tx = none →
            t.stc.station = .silent ∧ t.stc.stationCause = true ∧
              t.ctr = { s.ctr with hold := false, coldWait := none, coldAlignPending := false } ∧
              t.txs = contextsReturned s.txs ∧ SameOutside [.rxu, .flt, .stc, .ctr, .txs] s t) ∧
          (s.lif.tx ≠ none →
            t.stc = { s.stc with pendingExit := some (s.stc.pendingExit.getD .toSilent) } ∧
              SameOutside [.rxu, .flt, .stc] s t))) ∧
    ((∀ e ∈ s.rxu.table, e.sender = a → e.cls = k → e.age + 1 ≠ s.cfg.ageLimit) →
      exec (.entryAged a k) s = .next s)) ∧
  (∀ s : State, s.ctr.aligned = true →
    (s.rxu.delivery ≠ [] → s.rxu.quiet + 1 = s.cfg.quietLimit →
      ∃ t, exec .quietLimitReached s = .next t ∧
        t.rxu = { s.rxu with quiet := s.cfg.quietLimit, quietFlag := true } ∧ causePending t .delivery = true ∧
        t.lpt = { s.lpt with dlvReq := dlvLevel s.cfg.dlvMode s.lpt.dlvReq s.cfg.trigger s.rxu.delivery.length true } ∧
        SameOutside [.rxu, .lpt] s t) ∧
    (s.cfg.reportMode = .periodic → s.flt.period + 1 = s.cfg.reportPeriod →
      exec .periodicTransfer s = .next { s with flt :=
        { s.flt with snapshot := s.flt.lineErrors, snapOverflow := s.flt.liveOverflow, lineErrors := 0,
                     liveOverflow := false, reportReady := true, period := 0 } }) ∧
    (s.rxu.quiet + 1 ≠ s.cfg.quietLimit → exec .quietLimitReached s = .next s) ∧
    (s.cfg.reportMode = .onDemand ∨ s.flt.period + 1 ≠ s.cfg.reportPeriod → exec .periodicTransfer s = .next s)) ∧
  (∀ (a : Addr) (k : Cls) (s : State), s.ctr.aligned = false →
    exec (.entryAged a k) s = .next s ∧ exec .quietLimitReached s = .next s ∧ exec .periodicTransfer s = .next s)

/-! ### The line error counter and INT -/

/-- The counter saturates at 65535: a raise past it sets the live overflow flag, a raise to exactly 65535 does not, a raise of 0
changes nothing; the flag makes REPORT pending, COUNTER clears it and leaves the counter, and a transfer clears it (R158). -/
def Obligations.CounterSaturates : Prop :=
  (∀ (n : Nat) (f : Flt),
    (f.lineErrors.toNat + n ≤ 65535 →
      (countErrors n f).lineErrors.toNat = f.lineErrors.toNat + n ∧ (countErrors n f).liveOverflow = f.liveOverflow) ∧
    (65535 < f.lineErrors.toNat + n →
      (countErrors n f).lineErrors.toNat = 65535 ∧ (countErrors n f).liveOverflow = true) ∧
    countErrors n f = { f with lineErrors := (countErrors n f).lineErrors, liveOverflow := (countErrors n f).liveOverflow } ∧
    (transfer f).liveOverflow = false) ∧
  (∀ s : State, s.flt.liveOverflow = true → causePending s .report = true) ∧
  (∀ s : State, Takeable .counter s →
    ∃ t, exec .counter s = .next t ∧ t.flt.liveOverflow = false ∧ t.flt.lineErrors = s.flt.lineErrors)

/-- INT is active exactly while a pending cause has its enable on; the identified cause is the highest of those, and NONE while
INT is inactive; and the pin shows it in the selected drive (R176, R177). -/
def Obligations.IntFollowsCauses : Prop :=
  ∀ s : State,
    (intActive s = true ↔ ∃ k : Cause, causePending s k = true ∧ s.lpt.enables.getLsbD k.bit = true) ∧
    (∀ k : Cause, identifiedCause s = some k ↔
      causePending s k = true ∧ s.lpt.enables.getLsbD k.bit = true ∧
        ∀ j : Cause, j.bit < k.bit → causePending s j = false ∨ s.lpt.enables.getLsbD j.bit = false) ∧
    (identifiedCause s = none ↔ intActive s = false) ∧
    (causePending s .station = s.stc.stationCause) ∧
    (causePending s .fault = true ↔ ∃ k : FaultKind, hasKind s.flt.flags k = true) ∧
    (causePending s .delivery = true ↔ s.cfg.trigger ≤ s.rxu.delivery.length ∨ s.rxu.quietFlag = true) ∧
    (causePending s .completion = true ↔ s.txs.completions ≠ []) ∧
    (causePending s .peer = true ↔
      ∃ a : Addr, s.pmn.peers[a].presenceChanged = true ∨ s.pmn.peers[a].qualityChanged = true) ∧
    (causePending s .report = true ↔ s.flt.reportReady = true ∨ s.flt.liveOverflow = true) ∧
    intPin s = match s.cfg.intDrive, intActive s with
      | .openDrainLow, true => .low
      | .openDrainLow, false => .released
      | .pushPullLow, true => .low
      | .pushPullLow, false => .high
      | .pushPullHigh, true => .high
      | .pushPullHigh, false => .low

/-! ### Frames as built and as read -/

/-- The CRC-16 is what the register steps of R16 leave, from FFFFh, over the bits of the bytes in line order; and the 64
pattern bits in line order are the outputs of the register steps of R17, from its seed. A FILL or COLD frame as one station
builds it has the layout of R12 and R14, and is read by another station with the same table as clean, with its sender, phase
and cycle and a pattern error count of 0. The PATTERN insertion inverts bit 0 of the first pattern byte and makes that count
1, and the CRC insertion inverts the low CRC byte and makes the outcome CRC. The pattern of any received frame is compared under
the conditions of R18 alone, whatever its outcome, and its count is the sum over the pattern characters of the bits that differ,
or 8 for a framing error (R12, R14 to R18, R20, R22). -/
def Obligations.ShortFramesReadBack : Prop :=
  (∀ bytes : List Byte, Steps CrcStep (bytes.flatMap lineBits) 0xFFFF (crc16 bytes)) ∧
  (∀ (sender : Addr) (cycle : Cycle), (patternBytes sender cycle).length = 8 ∧
    ∃ r, Steps PatternStep ((patternBytes sender cycle).flatMap lineBits)
      (BitVec.ofNat 15 (0x4000 + 256 * sender.val + cycle.toNat)) r) ∧
  (∀ f : Gather,
    (¬ PatternCompared f → patternErrors f = none) ∧
    (PatternCompared f → patternErrors f =
      some (List.zipWith patternAdds (f.chars.drop 7) (patternBytes (senderOf f.bytes) (cycleOf f.bytes))).sum)) ∧
  ∀ (kind : FrameKind) (sender : Addr) (phase : Phase) (cycle : Cycle) (digest : Byte) (table : List PhaseEntry)
    (ins : Insertions) (own begun aligned : Bool),
    kind ≠ .data → (kind = .cold → cycle = 0) → (table[phase.val]?.map PhaseEntry.owner) = some sender →
    let bytes := shortFrame kind sender phase cycle digest ins
    let f : Gather := ⟨bytes.map fun b => ⟨b, true⟩, own, begun, aligned, false⟩
    let crc := (crc16 ((bytes.drop 1).take 4)).toNat
    (bytes.take 7).map BitVec.toNat =
        [0xC3, (if kind = .fill then 2 else 3) * 32 + sender.val, phase.val, cycle.toNat, digest.toNat,
          if ins.crc then 255 - crc % 256 else crc % 256, crc / 256] ∧
      (bytes.drop 7).flatMap lineBits =
        (match (patternBytes sender cycle).flatMap lineBits with
          | b :: rest => (b ^^ ins.pattern) :: rest
          | [] => []) ∧
      bytes.length = 15 ∧ kindOf f.bytes = some kind ∧ senderOf f.bytes = sender ∧
      phaseOf f.bytes = phase ∧ cycleOf f.bytes = cycle ∧
      (ins.crc = false → checkFrame table digest f = .clean ∧ patternErrors f = some (if ins.pattern then 1 else 0)) ∧
      (ins.crc = true → checkFrame table digest f = .crc ∧ patternErrors f = none)

/-- A DATA frame as one station builds it has the layout of R12 and R13, and is read by another station with the same table as
clean, with every field and the payload as the segment gave them; the CRC insertion inverts the low CRC byte and makes its
outcome CRC (R12, R13, R15, R16, R20, R22, R97; 10, DATA frame). -/
def Obligations.DataFramesReadBack : Prop :=
  ∀ (sender : Addr) (phase : Phase) (cycle : Cycle) (digest : Byte) (g : Segment) (table : List PhaseEntry) (crc : Bool)
    (own begun aligned : Bool),
    (table[phase.val]?.map PhaseEntry.owner) = some sender → g.index ≤ 7 → 1 ≤ g.payload.length → g.payload.length ≤ 64 →
    (g.last = false → g.payload.length = 64) → (g.index = 7 → g.last = true) →
    (g.destination.toNat ≤ 31 ∨ g.destination = 0xFF) →
    let bytes := dataFrame sender phase cycle digest g ⟨false, crc⟩
    let f : Gather := ⟨bytes.map fun b => ⟨b, true⟩, own, begun, aligned, false⟩
    let n := g.payload.length
    let sum := (crc16 ((bytes.drop 1).take (7 + n))).toNat
    bytes.map BitVec.toNat =
        [0xC3, 32 + sender.val, phase.val, cycle.toNat, digest.toNat, g.destination.toNat,
          64 * g.cls.val + 16 * g.number.toNat + 2 * g.index + g.last.toNat, n] ++ g.payload.map BitVec.toNat ++
          [if crc then 255 - sum % 256 else sum % 256, sum / 256] ∧
      bytes.length = 8 + g.payload.length + 2 ∧ kindOf f.bytes = some .data ∧ senderOf f.bytes = sender ∧
      phaseOf f.bytes = phase ∧ cycleOf f.bytes = cycle ∧ destinationOf f.bytes = g.destination ∧ classOf f.bytes = g.cls ∧
      numberOf f.bytes = g.number ∧ indexOf f.bytes = g.index ∧ lastOf f.bytes = g.last ∧
      lengthOf f.bytes = g.payload.length ∧ (f.bytes.drop 8).take g.payload.length = g.payload ∧
      checkFrame table digest f = if crc then .crc else .clean

/-! ### What every step keeps -/

/-- Every promise holds right after reset. -/
def Obligations.PromisesAtReset : Prop :=
  ContextInv State.reset ∧ CompletionsBounded State.reset ∧ ReceiveInv State.reset ∧ FirstFaultFlagged State.reset ∧
    StationInv State.reset ∧ PortInv State.reset ∧ CountersInv State.reset ∧ LinesInv State.reset

/-- The transmit pool stays whole (R71), each class queue holds at most 8 records (R72), no two records share a tag (R73), every
record stands in the queue of its class with one pool block per segment (R69), the contexts stay in order (R74, R85, R86), and a
frame in flight stays the next segment of the current message, on the line in ACTIVE (R97, R98, R103). -/
def Obligations.ContextsKeptByStep : Prop := ∀ s t : State, ContextInv s → step s = .next t → ContextInv t

/-- The completion records and the reserved place stay at most 16 (R79, R96), and the first-fault record stays valid only while
the status flag of its kind is set (R151). -/
def Obligations.RecordsKeptByStep : Prop :=
  ∀ s t : State, step s = .next t →
    (CompletionsBounded s → CompletionsBounded t) ∧ (FirstFaultFlagged s → FirstFaultFlagged t)

/-- The receive pool stays whole (R108), and the reassembly table and the delivery queue stay as R110 and R121 say. R110 gives
the table no order; that it stands in ascending order of sender and class, as the premise and the conclusion have it, is the
model's choice (log 16). -/
def Obligations.ReceiveKeptByStep : Prop := ∀ s t : State, ReceiveInv s → step s = .next t → ReceiveInv t

/-- The station state, the alignment, the skip timer and the cold-start wait, the driver and the receiver stay in accord, and
the table within 64 entries (R3, R6, R23, R27, R39, R47), while the Local Port holds the argument bytes it has counted, which
stays so by itself (R166, R167). -/
def Obligations.StationKeptByStep : Prop :=
  ∀ s t : State, step s = .next t → PortInv s → PortInv t ∧ (StationInv s → StationInv t)

/-- The counters stay in their ranges (R10, R55, R116, R124, R159), with no reassembly entry in CONFIG (R129). -/
def Obligations.CountersKeptByStep : Prop := ∀ s t : State, CountersInv s → step s = .next t → CountersInv t

/-- The request lines keep following the delivery queue and the transmit pool in their modes (R178, R179). -/
def Obligations.LinesKeptByStep : Prop := ∀ s t : State, LinesInv s → step s = .next t → LinesInv t
end

