-- ==== Sys2Proof/Laws/State.lean ====
section
/-! SUPPORT. One lemma per field of State per update of a block, each true by rfl. -/

namespace Sys2Proof.Machine

section

variable (s : State) (x : Lif)

@[simp] theorem State.withLif_lif : (s.withLif x).lif = x := rfl
@[simp] theorem State.withLif_fru : (s.withLif x).fru = s.fru := rfl
@[simp] theorem State.withLif_ctr : (s.withLif x).ctr = s.ctr := rfl
@[simp] theorem State.withLif_stc : (s.withLif x).stc = s.stc := rfl
@[simp] theorem State.withLif_txs : (s.withLif x).txs = s.txs := rfl
@[simp] theorem State.withLif_rxu : (s.withLif x).rxu = s.rxu := rfl
@[simp] theorem State.withLif_pmn : (s.withLif x).pmn = s.pmn := rfl
@[simp] theorem State.withLif_flt : (s.withLif x).flt = s.flt := rfl
@[simp] theorem State.withLif_lpt : (s.withLif x).lpt = s.lpt := rfl
@[simp] theorem State.withLif_cfg : (s.withLif x).cfg = s.cfg := rfl
@[simp] theorem State.withLif_rstLow : (s.withLif x).rstLow = s.rstLow := rfl
@[simp] theorem State.withLif_freeCount : (s.withLif x).freeCount = s.freeCount := rfl
@[simp] theorem State.withLif_pending : (s.withLif x).pending = s.pending := rfl

end

section

variable (s : State) (x : Fru)

@[simp] theorem State.withFru_lif : (s.withFru x).lif = s.lif := rfl
@[simp] theorem State.withFru_fru : (s.withFru x).fru = x := rfl
@[simp] theorem State.withFru_ctr : (s.withFru x).ctr = s.ctr := rfl
@[simp] theorem State.withFru_stc : (s.withFru x).stc = s.stc := rfl
@[simp] theorem State.withFru_txs : (s.withFru x).txs = s.txs := rfl
@[simp] theorem State.withFru_rxu : (s.withFru x).rxu = s.rxu := rfl
@[simp] theorem State.withFru_pmn : (s.withFru x).pmn = s.pmn := rfl
@[simp] theorem State.withFru_flt : (s.withFru x).flt = s.flt := rfl
@[simp] theorem State.withFru_lpt : (s.withFru x).lpt = s.lpt := rfl
@[simp] theorem State.withFru_cfg : (s.withFru x).cfg = s.cfg := rfl
@[simp] theorem State.withFru_rstLow : (s.withFru x).rstLow = s.rstLow := rfl
@[simp] theorem State.withFru_freeCount : (s.withFru x).freeCount = s.freeCount := rfl
@[simp] theorem State.withFru_pending : (s.withFru x).pending = s.pending := rfl

end

section

variable (s : State) (x : Ctr)

@[simp] theorem State.withCtr_lif : (s.withCtr x).lif = s.lif := rfl
@[simp] theorem State.withCtr_fru : (s.withCtr x).fru = s.fru := rfl
@[simp] theorem State.withCtr_ctr : (s.withCtr x).ctr = x := rfl
@[simp] theorem State.withCtr_stc : (s.withCtr x).stc = s.stc := rfl
@[simp] theorem State.withCtr_txs : (s.withCtr x).txs = s.txs := rfl
@[simp] theorem State.withCtr_rxu : (s.withCtr x).rxu = s.rxu := rfl
@[simp] theorem State.withCtr_pmn : (s.withCtr x).pmn = s.pmn := rfl
@[simp] theorem State.withCtr_flt : (s.withCtr x).flt = s.flt := rfl
@[simp] theorem State.withCtr_lpt : (s.withCtr x).lpt = s.lpt := rfl
@[simp] theorem State.withCtr_cfg : (s.withCtr x).cfg = s.cfg := rfl
@[simp] theorem State.withCtr_rstLow : (s.withCtr x).rstLow = s.rstLow := rfl
@[simp] theorem State.withCtr_freeCount : (s.withCtr x).freeCount = s.freeCount := rfl
@[simp] theorem State.withCtr_pending : (s.withCtr x).pending = s.pending := rfl

end

section

variable (s : State) (x : Stc)

@[simp] theorem State.withStc_lif : (s.withStc x).lif = s.lif := rfl
@[simp] theorem State.withStc_fru : (s.withStc x).fru = s.fru := rfl
@[simp] theorem State.withStc_ctr : (s.withStc x).ctr = s.ctr := rfl
@[simp] theorem State.withStc_stc : (s.withStc x).stc = x := rfl
@[simp] theorem State.withStc_txs : (s.withStc x).txs = s.txs := rfl
@[simp] theorem State.withStc_rxu : (s.withStc x).rxu = s.rxu := rfl
@[simp] theorem State.withStc_pmn : (s.withStc x).pmn = s.pmn := rfl
@[simp] theorem State.withStc_flt : (s.withStc x).flt = s.flt := rfl
@[simp] theorem State.withStc_lpt : (s.withStc x).lpt = s.lpt := rfl
@[simp] theorem State.withStc_cfg : (s.withStc x).cfg = s.cfg := rfl
@[simp] theorem State.withStc_rstLow : (s.withStc x).rstLow = s.rstLow := rfl
@[simp] theorem State.withStc_freeCount : (s.withStc x).freeCount = s.freeCount := rfl
@[simp] theorem State.withStc_pending : (s.withStc x).pending = s.pending := rfl

end

section

variable (s : State) (x : Txs)

@[simp] theorem State.withTxs_lif : (s.withTxs x).lif = s.lif := rfl
@[simp] theorem State.withTxs_fru : (s.withTxs x).fru = s.fru := rfl
@[simp] theorem State.withTxs_ctr : (s.withTxs x).ctr = s.ctr := rfl
@[simp] theorem State.withTxs_stc : (s.withTxs x).stc = s.stc := rfl
@[simp] theorem State.withTxs_txs : (s.withTxs x).txs = x := rfl
@[simp] theorem State.withTxs_rxu : (s.withTxs x).rxu = s.rxu := rfl
@[simp] theorem State.withTxs_pmn : (s.withTxs x).pmn = s.pmn := rfl
@[simp] theorem State.withTxs_flt : (s.withTxs x).flt = s.flt := rfl
@[simp] theorem State.withTxs_lpt : (s.withTxs x).lpt = s.lpt := rfl
@[simp] theorem State.withTxs_cfg : (s.withTxs x).cfg = s.cfg := rfl
@[simp] theorem State.withTxs_rstLow : (s.withTxs x).rstLow = s.rstLow := rfl
@[simp] theorem State.withTxs_freeCount : (s.withTxs x).freeCount = s.freeCount := rfl
@[simp] theorem State.withTxs_pending : (s.withTxs x).pending = s.pending := rfl

end

section

variable (s : State) (x : Rxu)

@[simp] theorem State.withRxu_lif : (s.withRxu x).lif = s.lif := rfl
@[simp] theorem State.withRxu_fru : (s.withRxu x).fru = s.fru := rfl
@[simp] theorem State.withRxu_ctr : (s.withRxu x).ctr = s.ctr := rfl
@[simp] theorem State.withRxu_stc : (s.withRxu x).stc = s.stc := rfl
@[simp] theorem State.withRxu_txs : (s.withRxu x).txs = s.txs := rfl
@[simp] theorem State.withRxu_rxu : (s.withRxu x).rxu = x := rfl
@[simp] theorem State.withRxu_pmn : (s.withRxu x).pmn = s.pmn := rfl
@[simp] theorem State.withRxu_flt : (s.withRxu x).flt = s.flt := rfl
@[simp] theorem State.withRxu_lpt : (s.withRxu x).lpt = s.lpt := rfl
@[simp] theorem State.withRxu_cfg : (s.withRxu x).cfg = s.cfg := rfl
@[simp] theorem State.withRxu_rstLow : (s.withRxu x).rstLow = s.rstLow := rfl
@[simp] theorem State.withRxu_freeCount : (s.withRxu x).freeCount = s.freeCount := rfl
@[simp] theorem State.withRxu_pending : (s.withRxu x).pending = s.pending := rfl

end

section

variable (s : State) (x : Pmn)

@[simp] theorem State.withPmn_lif : (s.withPmn x).lif = s.lif := rfl
@[simp] theorem State.withPmn_fru : (s.withPmn x).fru = s.fru := rfl
@[simp] theorem State.withPmn_ctr : (s.withPmn x).ctr = s.ctr := rfl
@[simp] theorem State.withPmn_stc : (s.withPmn x).stc = s.stc := rfl
@[simp] theorem State.withPmn_txs : (s.withPmn x).txs = s.txs := rfl
@[simp] theorem State.withPmn_rxu : (s.withPmn x).rxu = s.rxu := rfl
@[simp] theorem State.withPmn_pmn : (s.withPmn x).pmn = x := rfl
@[simp] theorem State.withPmn_flt : (s.withPmn x).flt = s.flt := rfl
@[simp] theorem State.withPmn_lpt : (s.withPmn x).lpt = s.lpt := rfl
@[simp] theorem State.withPmn_cfg : (s.withPmn x).cfg = s.cfg := rfl
@[simp] theorem State.withPmn_rstLow : (s.withPmn x).rstLow = s.rstLow := rfl
@[simp] theorem State.withPmn_freeCount : (s.withPmn x).freeCount = s.freeCount := rfl
@[simp] theorem State.withPmn_pending : (s.withPmn x).pending = s.pending := rfl

end

section

variable (s : State) (x : Flt)

@[simp] theorem State.withFlt_lif : (s.withFlt x).lif = s.lif := rfl
@[simp] theorem State.withFlt_fru : (s.withFlt x).fru = s.fru := rfl
@[simp] theorem State.withFlt_ctr : (s.withFlt x).ctr = s.ctr := rfl
@[simp] theorem State.withFlt_stc : (s.withFlt x).stc = s.stc := rfl
@[simp] theorem State.withFlt_txs : (s.withFlt x).txs = s.txs := rfl
@[simp] theorem State.withFlt_rxu : (s.withFlt x).rxu = s.rxu := rfl
@[simp] theorem State.withFlt_pmn : (s.withFlt x).pmn = s.pmn := rfl
@[simp] theorem State.withFlt_flt : (s.withFlt x).flt = x := rfl
@[simp] theorem State.withFlt_lpt : (s.withFlt x).lpt = s.lpt := rfl
@[simp] theorem State.withFlt_cfg : (s.withFlt x).cfg = s.cfg := rfl
@[simp] theorem State.withFlt_rstLow : (s.withFlt x).rstLow = s.rstLow := rfl
@[simp] theorem State.withFlt_freeCount : (s.withFlt x).freeCount = s.freeCount := rfl
@[simp] theorem State.withFlt_pending : (s.withFlt x).pending = s.pending := rfl

end

section

variable (s : State) (x : Lpt)

@[simp] theorem State.withLpt_lif : (s.withLpt x).lif = s.lif := rfl
@[simp] theorem State.withLpt_fru : (s.withLpt x).fru = s.fru := rfl
@[simp] theorem State.withLpt_ctr : (s.withLpt x).ctr = s.ctr := rfl
@[simp] theorem State.withLpt_stc : (s.withLpt x).stc = s.stc := rfl
@[simp] theorem State.withLpt_txs : (s.withLpt x).txs = s.txs := rfl
@[simp] theorem State.withLpt_rxu : (s.withLpt x).rxu = s.rxu := rfl
@[simp] theorem State.withLpt_pmn : (s.withLpt x).pmn = s.pmn := rfl
@[simp] theorem State.withLpt_flt : (s.withLpt x).flt = s.flt := rfl
@[simp] theorem State.withLpt_lpt : (s.withLpt x).lpt = x := rfl
@[simp] theorem State.withLpt_cfg : (s.withLpt x).cfg = s.cfg := rfl
@[simp] theorem State.withLpt_rstLow : (s.withLpt x).rstLow = s.rstLow := rfl
@[simp] theorem State.withLpt_freeCount : (s.withLpt x).freeCount = s.freeCount := rfl
@[simp] theorem State.withLpt_pending : (s.withLpt x).pending = s.pending := rfl

end

section

variable (s : State) (x : Items)

@[simp] theorem State.withCfg_lif : (s.withCfg x).lif = s.lif := rfl
@[simp] theorem State.withCfg_fru : (s.withCfg x).fru = s.fru := rfl
@[simp] theorem State.withCfg_ctr : (s.withCfg x).ctr = s.ctr := rfl
@[simp] theorem State.withCfg_stc : (s.withCfg x).stc = s.stc := rfl
@[simp] theorem State.withCfg_txs : (s.withCfg x).txs = s.txs := rfl
@[simp] theorem State.withCfg_rxu : (s.withCfg x).rxu = s.rxu := rfl
@[simp] theorem State.withCfg_pmn : (s.withCfg x).pmn = s.pmn := rfl
@[simp] theorem State.withCfg_flt : (s.withCfg x).flt = s.flt := rfl
@[simp] theorem State.withCfg_lpt : (s.withCfg x).lpt = s.lpt := rfl
@[simp] theorem State.withCfg_cfg : (s.withCfg x).cfg = x := rfl
@[simp] theorem State.withCfg_rstLow : (s.withCfg x).rstLow = s.rstLow := rfl
@[simp] theorem State.withCfg_freeCount : (s.withCfg x).freeCount = s.freeCount := rfl
@[simp] theorem State.withCfg_pending : (s.withCfg x).pending = s.pending := rfl

end

section

variable (s : State) (x : Bool)

@[simp] theorem State.withRstLow_lif : (s.withRstLow x).lif = s.lif := rfl
@[simp] theorem State.withRstLow_fru : (s.withRstLow x).fru = s.fru := rfl
@[simp] theorem State.withRstLow_ctr : (s.withRstLow x).ctr = s.ctr := rfl
@[simp] theorem State.withRstLow_stc : (s.withRstLow x).stc = s.stc := rfl
@[simp] theorem State.withRstLow_txs : (s.withRstLow x).txs = s.txs := rfl
@[simp] theorem State.withRstLow_rxu : (s.withRstLow x).rxu = s.rxu := rfl
@[simp] theorem State.withRstLow_pmn : (s.withRstLow x).pmn = s.pmn := rfl
@[simp] theorem State.withRstLow_flt : (s.withRstLow x).flt = s.flt := rfl
@[simp] theorem State.withRstLow_lpt : (s.withRstLow x).lpt = s.lpt := rfl
@[simp] theorem State.withRstLow_cfg : (s.withRstLow x).cfg = s.cfg := rfl
@[simp] theorem State.withRstLow_rstLow : (s.withRstLow x).rstLow = x := rfl
@[simp] theorem State.withRstLow_freeCount : (s.withRstLow x).freeCount = s.freeCount := rfl
@[simp] theorem State.withRstLow_pending : (s.withRstLow x).pending = s.pending := rfl

end

section

variable (s : State) (x : Nat)

@[simp] theorem State.withFreeCount_lif : (s.withFreeCount x).lif = s.lif := rfl
@[simp] theorem State.withFreeCount_fru : (s.withFreeCount x).fru = s.fru := rfl
@[simp] theorem State.withFreeCount_ctr : (s.withFreeCount x).ctr = s.ctr := rfl
@[simp] theorem State.withFreeCount_stc : (s.withFreeCount x).stc = s.stc := rfl
@[simp] theorem State.withFreeCount_txs : (s.withFreeCount x).txs = s.txs := rfl
@[simp] theorem State.withFreeCount_rxu : (s.withFreeCount x).rxu = s.rxu := rfl
@[simp] theorem State.withFreeCount_pmn : (s.withFreeCount x).pmn = s.pmn := rfl
@[simp] theorem State.withFreeCount_flt : (s.withFreeCount x).flt = s.flt := rfl
@[simp] theorem State.withFreeCount_lpt : (s.withFreeCount x).lpt = s.lpt := rfl
@[simp] theorem State.withFreeCount_cfg : (s.withFreeCount x).cfg = s.cfg := rfl
@[simp] theorem State.withFreeCount_rstLow : (s.withFreeCount x).rstLow = s.rstLow := rfl
@[simp] theorem State.withFreeCount_freeCount : (s.withFreeCount x).freeCount = x := rfl
@[simp] theorem State.withFreeCount_pending : (s.withFreeCount x).pending = s.pending := rfl

end

section

variable (s : State) (x : List Instr)

@[simp] theorem State.withPending_lif : (s.withPending x).lif = s.lif := rfl
@[simp] theorem State.withPending_fru : (s.withPending x).fru = s.fru := rfl
@[simp] theorem State.withPending_ctr : (s.withPending x).ctr = s.ctr := rfl
@[simp] theorem State.withPending_stc : (s.withPending x).stc = s.stc := rfl
@[simp] theorem State.withPending_txs : (s.withPending x).txs = s.txs := rfl
@[simp] theorem State.withPending_rxu : (s.withPending x).rxu = s.rxu := rfl
@[simp] theorem State.withPending_pmn : (s.withPending x).pmn = s.pmn := rfl
@[simp] theorem State.withPending_flt : (s.withPending x).flt = s.flt := rfl
@[simp] theorem State.withPending_lpt : (s.withPending x).lpt = s.lpt := rfl
@[simp] theorem State.withPending_cfg : (s.withPending x).cfg = s.cfg := rfl
@[simp] theorem State.withPending_rstLow : (s.withPending x).rstLow = s.rstLow := rfl
@[simp] theorem State.withPending_freeCount : (s.withPending x).freeCount = s.freeCount := rfl
@[simp] theorem State.withPending_pending : (s.withPending x).pending = x := rfl

end

end Sys2Proof.Machine
end

