-- ==== Sys2Proof/Laws/Frames.lean ====
section
/-! SUPPORT. Which blocks each shared operation leaves alone, one lemma per block, and what it can do to the others. -/

namespace Sys2Proof.Machine

variable (s : State)

/-! ### Station entries and faults -/

@[simp] theorem enterListen_lif : (enterListen s).lif = s.lif := by
  rfl
@[simp] theorem enterListen_fru : (enterListen s).fru = s.fru := by
  rfl
@[simp] theorem enterListen_txs : (enterListen s).txs = s.txs := by
  rfl
@[simp] theorem enterListen_rxu : (enterListen s).rxu = s.rxu := by
  rfl
@[simp] theorem enterListen_pmn : (enterListen s).pmn = s.pmn := by
  rfl
@[simp] theorem enterListen_flt : (enterListen s).flt = s.flt := by
  rfl
@[simp] theorem enterListen_lpt : (enterListen s).lpt = s.lpt := by
  rfl
@[simp] theorem enterListen_cfg : (enterListen s).cfg = s.cfg := by
  rfl
@[simp] theorem enterListen_rstLow : (enterListen s).rstLow = s.rstLow := by
  rfl
@[simp] theorem enterListen_freeCount : (enterListen s).freeCount = s.freeCount := by
  rfl
@[simp] theorem enterListen_pending : (enterListen s).pending = s.pending := by
  rfl

@[simp] theorem enterActive_fru : (enterActive s).fru = s.fru := by
  rfl
@[simp] theorem enterActive_txs : (enterActive s).txs = s.txs := by
  rfl
@[simp] theorem enterActive_rxu : (enterActive s).rxu = s.rxu := by
  rfl
@[simp] theorem enterActive_pmn : (enterActive s).pmn = s.pmn := by
  rfl
@[simp] theorem enterActive_flt : (enterActive s).flt = s.flt := by
  rfl
@[simp] theorem enterActive_lpt : (enterActive s).lpt = s.lpt := by
  rfl
@[simp] theorem enterActive_cfg : (enterActive s).cfg = s.cfg := by
  rfl
@[simp] theorem enterActive_rstLow : (enterActive s).rstLow = s.rstLow := by
  rfl
@[simp] theorem enterActive_freeCount : (enterActive s).freeCount = s.freeCount := by
  rfl
@[simp] theorem enterActive_pending : (enterActive s).pending = s.pending := by
  rfl

@[simp] theorem enterSilent_lif : (enterSilent s).lif = s.lif := by
  rfl
@[simp] theorem enterSilent_fru : (enterSilent s).fru = s.fru := by
  rfl
@[simp] theorem enterSilent_rxu : (enterSilent s).rxu = s.rxu := by
  rfl
@[simp] theorem enterSilent_pmn : (enterSilent s).pmn = s.pmn := by
  rfl
@[simp] theorem enterSilent_flt : (enterSilent s).flt = s.flt := by
  rfl
@[simp] theorem enterSilent_lpt : (enterSilent s).lpt = s.lpt := by
  rfl
@[simp] theorem enterSilent_cfg : (enterSilent s).cfg = s.cfg := by
  rfl
@[simp] theorem enterSilent_rstLow : (enterSilent s).rstLow = s.rstLow := by
  rfl
@[simp] theorem enterSilent_freeCount : (enterSilent s).freeCount = s.freeCount := by
  rfl
@[simp] theorem enterSilent_pending : (enterSilent s).pending = s.pending := by
  rfl

@[simp] theorem enterConfig_pmn : (enterConfig s).pmn = s.pmn := by
  rfl
@[simp] theorem enterConfig_flt : (enterConfig s).flt = s.flt := by
  rfl
@[simp] theorem enterConfig_lpt : (enterConfig s).lpt = s.lpt := by
  rfl
@[simp] theorem enterConfig_cfg : (enterConfig s).cfg = s.cfg := by
  rfl
@[simp] theorem enterConfig_rstLow : (enterConfig s).rstLow = s.rstLow := by
  rfl
@[simp] theorem enterConfig_freeCount : (enterConfig s).freeCount = s.freeCount := by
  rfl
@[simp] theorem enterConfig_pending : (enterConfig s).pending = s.pending := by
  rfl

@[simp] theorem stoppingReport_lif : (stoppingReport s).lif = s.lif := by
  unfold stoppingReport; split_ifs <;> simp
@[simp] theorem stoppingReport_fru : (stoppingReport s).fru = s.fru := by
  unfold stoppingReport; split_ifs <;> simp
@[simp] theorem stoppingReport_rxu : (stoppingReport s).rxu = s.rxu := by
  unfold stoppingReport; split_ifs <;> simp
@[simp] theorem stoppingReport_pmn : (stoppingReport s).pmn = s.pmn := by
  unfold stoppingReport; split_ifs <;> simp
@[simp] theorem stoppingReport_flt : (stoppingReport s).flt = s.flt := by
  unfold stoppingReport; split_ifs <;> simp
@[simp] theorem stoppingReport_lpt : (stoppingReport s).lpt = s.lpt := by
  unfold stoppingReport; split_ifs <;> simp
@[simp] theorem stoppingReport_cfg : (stoppingReport s).cfg = s.cfg := by
  unfold stoppingReport; split_ifs <;> simp
@[simp] theorem stoppingReport_rstLow : (stoppingReport s).rstLow = s.rstLow := by
  unfold stoppingReport; split_ifs <;> simp
@[simp] theorem stoppingReport_freeCount : (stoppingReport s).freeCount = s.freeCount := by
  unfold stoppingReport; split_ifs <;> simp
@[simp] theorem stoppingReport_pending : (stoppingReport s).pending = s.pending := by
  unfold stoppingReport; split_ifs <;> simp

@[simp] theorem raise_lif (o : Occurrence) : (raise o s).lif = s.lif := by
  unfold raise; split_ifs <;> simp
@[simp] theorem raise_fru (o : Occurrence) : (raise o s).fru = s.fru := by
  unfold raise; split_ifs <;> simp
@[simp] theorem raise_rxu (o : Occurrence) : (raise o s).rxu = s.rxu := by
  unfold raise; split_ifs <;> simp
@[simp] theorem raise_pmn (o : Occurrence) : (raise o s).pmn = s.pmn := by
  unfold raise; split_ifs <;> simp
@[simp] theorem raise_lpt (o : Occurrence) : (raise o s).lpt = s.lpt := by
  unfold raise; split_ifs <;> simp
@[simp] theorem raise_cfg (o : Occurrence) : (raise o s).cfg = s.cfg := by
  unfold raise; split_ifs <;> simp
@[simp] theorem raise_rstLow (o : Occurrence) : (raise o s).rstLow = s.rstLow := by
  unfold raise; split_ifs <;> simp
@[simp] theorem raise_freeCount (o : Occurrence) : (raise o s).freeCount = s.freeCount := by
  unfold raise; split_ifs <;> simp
@[simp] theorem raise_pending (o : Occurrence) : (raise o s).pending = s.pending := by
  unfold raise; split_ifs <;> simp

theorem raiseAll_nil : raiseAll [] s = s := rfl

theorem raiseAll_cons (o : Occurrence) (os : List Occurrence) : raiseAll (o :: os) s = raiseAll os (raise o s) := rfl

/-- A property that every occurrence keeps is kept by a run of them. -/
theorem raiseAll_induct {P : State → Prop} (h : ∀ o s, P s → P (raise o s)) (os : List Occurrence) (s : State) (hs : P s) :
    P (raiseAll os s) := by
  induction os generalizing s with
  | nil => exact hs
  | cons o os ih => exact ih _ (h o s hs)

@[simp] theorem raiseAll_lif (os : List Occurrence) : (raiseAll os s).lif = s.lif := by
  induction os generalizing s with
  | nil => rfl
  | cons o os ih => rw [raiseAll_cons, ih]; simp
@[simp] theorem raiseAll_fru (os : List Occurrence) : (raiseAll os s).fru = s.fru := by
  induction os generalizing s with
  | nil => rfl
  | cons o os ih => rw [raiseAll_cons, ih]; simp
@[simp] theorem raiseAll_rxu (os : List Occurrence) : (raiseAll os s).rxu = s.rxu := by
  induction os generalizing s with
  | nil => rfl
  | cons o os ih => rw [raiseAll_cons, ih]; simp
@[simp] theorem raiseAll_pmn (os : List Occurrence) : (raiseAll os s).pmn = s.pmn := by
  induction os generalizing s with
  | nil => rfl
  | cons o os ih => rw [raiseAll_cons, ih]; simp
@[simp] theorem raiseAll_lpt (os : List Occurrence) : (raiseAll os s).lpt = s.lpt := by
  induction os generalizing s with
  | nil => rfl
  | cons o os ih => rw [raiseAll_cons, ih]; simp
@[simp] theorem raiseAll_cfg (os : List Occurrence) : (raiseAll os s).cfg = s.cfg := by
  induction os generalizing s with
  | nil => rfl
  | cons o os ih => rw [raiseAll_cons, ih]; simp
@[simp] theorem raiseAll_rstLow (os : List Occurrence) : (raiseAll os s).rstLow = s.rstLow := by
  induction os generalizing s with
  | nil => rfl
  | cons o os ih => rw [raiseAll_cons, ih]; simp
@[simp] theorem raiseAll_freeCount (os : List Occurrence) : (raiseAll os s).freeCount = s.freeCount := by
  induction os generalizing s with
  | nil => rfl
  | cons o os ih => rw [raiseAll_cons, ih]; simp
@[simp] theorem raiseAll_pending (os : List Occurrence) : (raiseAll os s).pending = s.pending := by
  induction os generalizing s with
  | nil => rfl
  | cons o os ih => rw [raiseAll_cons, ih]; simp

/-! ### Lines -/

@[simp] theorem driveDlv_lif : (driveDlv s).lif = s.lif := by
  rfl
@[simp] theorem driveDlv_fru : (driveDlv s).fru = s.fru := by
  rfl
@[simp] theorem driveDlv_ctr : (driveDlv s).ctr = s.ctr := by
  rfl
@[simp] theorem driveDlv_stc : (driveDlv s).stc = s.stc := by
  rfl
@[simp] theorem driveDlv_txs : (driveDlv s).txs = s.txs := by
  rfl
@[simp] theorem driveDlv_rxu : (driveDlv s).rxu = s.rxu := by
  rfl
@[simp] theorem driveDlv_pmn : (driveDlv s).pmn = s.pmn := by
  rfl
@[simp] theorem driveDlv_flt : (driveDlv s).flt = s.flt := by
  rfl
@[simp] theorem driveDlv_cfg : (driveDlv s).cfg = s.cfg := by
  rfl
@[simp] theorem driveDlv_rstLow : (driveDlv s).rstLow = s.rstLow := by
  rfl
@[simp] theorem driveDlv_freeCount : (driveDlv s).freeCount = s.freeCount := by
  rfl
@[simp] theorem driveDlv_pending : (driveDlv s).pending = s.pending := by
  rfl

@[simp] theorem driveSub_lif : (driveSub s).lif = s.lif := by
  rfl
@[simp] theorem driveSub_fru : (driveSub s).fru = s.fru := by
  rfl
@[simp] theorem driveSub_ctr : (driveSub s).ctr = s.ctr := by
  rfl
@[simp] theorem driveSub_stc : (driveSub s).stc = s.stc := by
  rfl
@[simp] theorem driveSub_txs : (driveSub s).txs = s.txs := by
  rfl
@[simp] theorem driveSub_rxu : (driveSub s).rxu = s.rxu := by
  rfl
@[simp] theorem driveSub_pmn : (driveSub s).pmn = s.pmn := by
  rfl
@[simp] theorem driveSub_flt : (driveSub s).flt = s.flt := by
  rfl
@[simp] theorem driveSub_cfg : (driveSub s).cfg = s.cfg := by
  rfl
@[simp] theorem driveSub_rstLow : (driveSub s).rstLow = s.rstLow := by
  rfl
@[simp] theorem driveSub_freeCount : (driveSub s).freeCount = s.freeCount := by
  rfl
@[simp] theorem driveSub_pending : (driveSub s).pending = s.pending := by
  rfl

@[simp] theorem settleLines_lif : (settleLines s).lif = s.lif := by
  rfl
@[simp] theorem settleLines_fru : (settleLines s).fru = s.fru := by
  rfl
@[simp] theorem settleLines_ctr : (settleLines s).ctr = s.ctr := by
  rfl
@[simp] theorem settleLines_stc : (settleLines s).stc = s.stc := by
  rfl
@[simp] theorem settleLines_txs : (settleLines s).txs = s.txs := by
  rfl
@[simp] theorem settleLines_rxu : (settleLines s).rxu = s.rxu := by
  rfl
@[simp] theorem settleLines_pmn : (settleLines s).pmn = s.pmn := by
  rfl
@[simp] theorem settleLines_flt : (settleLines s).flt = s.flt := by
  rfl
@[simp] theorem settleLines_cfg : (settleLines s).cfg = s.cfg := by
  rfl
@[simp] theorem settleLines_rstLow : (settleLines s).rstLow = s.rstLow := by
  rfl
@[simp] theorem settleLines_freeCount : (settleLines s).freeCount = s.freeCount := by
  rfl
@[simp] theorem settleLines_pending : (settleLines s).pending = s.pending := by
  rfl

/-! ### Receive Unit -/

@[simp] theorem takeSingle_lif (f : TakenFrame) : (takeSingle f s).lif = s.lif := by
  unfold takeSingle; split <;> simp
@[simp] theorem takeSingle_fru (f : TakenFrame) : (takeSingle f s).fru = s.fru := by
  unfold takeSingle; split <;> simp
@[simp] theorem takeSingle_pmn (f : TakenFrame) : (takeSingle f s).pmn = s.pmn := by
  unfold takeSingle; split <;> simp
@[simp] theorem takeSingle_cfg (f : TakenFrame) : (takeSingle f s).cfg = s.cfg := by
  unfold takeSingle; split <;> simp
@[simp] theorem takeSingle_rstLow (f : TakenFrame) : (takeSingle f s).rstLow = s.rstLow := by
  unfold takeSingle; split <;> simp
@[simp] theorem takeSingle_freeCount (f : TakenFrame) : (takeSingle f s).freeCount = s.freeCount := by
  unfold takeSingle; split <;> simp
@[simp] theorem takeSingle_pending (f : TakenFrame) : (takeSingle f s).pending = s.pending := by
  unfold takeSingle; split <;> simp

@[simp] theorem takeFirst_lif (f : TakenFrame) : (takeFirst f s).lif = s.lif := by
  unfold takeFirst; split <;> simp
@[simp] theorem takeFirst_fru (f : TakenFrame) : (takeFirst f s).fru = s.fru := by
  unfold takeFirst; split <;> simp
@[simp] theorem takeFirst_pmn (f : TakenFrame) : (takeFirst f s).pmn = s.pmn := by
  unfold takeFirst; split <;> simp
@[simp] theorem takeFirst_cfg (f : TakenFrame) : (takeFirst f s).cfg = s.cfg := by
  unfold takeFirst; split <;> simp
@[simp] theorem takeFirst_rstLow (f : TakenFrame) : (takeFirst f s).rstLow = s.rstLow := by
  unfold takeFirst; split <;> simp
@[simp] theorem takeFirst_freeCount (f : TakenFrame) : (takeFirst f s).freeCount = s.freeCount := by
  unfold takeFirst; split <;> simp
@[simp] theorem takeFirst_pending (f : TakenFrame) : (takeFirst f s).pending = s.pending := by
  unfold takeFirst; split <;> simp

@[simp] theorem replaceEntry_lif (f : TakenFrame) : (replaceEntry f s).lif = s.lif := by
  unfold replaceEntry; split <;> simp
@[simp] theorem replaceEntry_fru (f : TakenFrame) : (replaceEntry f s).fru = s.fru := by
  unfold replaceEntry; split <;> simp
@[simp] theorem replaceEntry_pmn (f : TakenFrame) : (replaceEntry f s).pmn = s.pmn := by
  unfold replaceEntry; split <;> simp
@[simp] theorem replaceEntry_cfg (f : TakenFrame) : (replaceEntry f s).cfg = s.cfg := by
  unfold replaceEntry; split <;> simp
@[simp] theorem replaceEntry_rstLow (f : TakenFrame) : (replaceEntry f s).rstLow = s.rstLow := by
  unfold replaceEntry; split <;> simp
@[simp] theorem replaceEntry_freeCount (f : TakenFrame) : (replaceEntry f s).freeCount = s.freeCount := by
  unfold replaceEntry; split <;> simp
@[simp] theorem replaceEntry_pending (f : TakenFrame) : (replaceEntry f s).pending = s.pending := by
  unfold replaceEntry; split <;> simp

@[simp] theorem takeMiddle_lif (f : TakenFrame) (e : Entry) : (takeMiddle f e s).lif = s.lif := by
  unfold takeMiddle; split <;> simp
@[simp] theorem takeMiddle_fru (f : TakenFrame) (e : Entry) : (takeMiddle f e s).fru = s.fru := by
  unfold takeMiddle; split <;> simp
@[simp] theorem takeMiddle_pmn (f : TakenFrame) (e : Entry) : (takeMiddle f e s).pmn = s.pmn := by
  unfold takeMiddle; split <;> simp
@[simp] theorem takeMiddle_cfg (f : TakenFrame) (e : Entry) : (takeMiddle f e s).cfg = s.cfg := by
  unfold takeMiddle; split <;> simp
@[simp] theorem takeMiddle_rstLow (f : TakenFrame) (e : Entry) : (takeMiddle f e s).rstLow = s.rstLow := by
  unfold takeMiddle; split <;> simp
@[simp] theorem takeMiddle_freeCount (f : TakenFrame) (e : Entry) : (takeMiddle f e s).freeCount = s.freeCount := by
  unfold takeMiddle; split <;> simp
@[simp] theorem takeMiddle_pending (f : TakenFrame) (e : Entry) : (takeMiddle f e s).pending = s.pending := by
  unfold takeMiddle; split <;> simp

@[simp] theorem takeLast_lif (f : TakenFrame) (e : Entry) : (takeLast f e s).lif = s.lif := by
  unfold takeLast; split <;> simp
@[simp] theorem takeLast_fru (f : TakenFrame) (e : Entry) : (takeLast f e s).fru = s.fru := by
  unfold takeLast; split <;> simp
@[simp] theorem takeLast_pmn (f : TakenFrame) (e : Entry) : (takeLast f e s).pmn = s.pmn := by
  unfold takeLast; split <;> simp
@[simp] theorem takeLast_cfg (f : TakenFrame) (e : Entry) : (takeLast f e s).cfg = s.cfg := by
  unfold takeLast; split <;> simp
@[simp] theorem takeLast_rstLow (f : TakenFrame) (e : Entry) : (takeLast f e s).rstLow = s.rstLow := by
  unfold takeLast; split <;> simp
@[simp] theorem takeLast_freeCount (f : TakenFrame) (e : Entry) : (takeLast f e s).freeCount = s.freeCount := by
  unfold takeLast; split <;> simp
@[simp] theorem takeLast_pending (f : TakenFrame) (e : Entry) : (takeLast f e s).pending = s.pending := by
  unfold takeLast; split <;> simp

@[simp] theorem takeContinuation_lif (f : TakenFrame) : (takeContinuation f s).lif = s.lif := by
  unfold takeContinuation; split; · rfl
  · split_ifs <;> simp
@[simp] theorem takeContinuation_fru (f : TakenFrame) : (takeContinuation f s).fru = s.fru := by
  unfold takeContinuation; split; · rfl
  · split_ifs <;> simp
@[simp] theorem takeContinuation_pmn (f : TakenFrame) : (takeContinuation f s).pmn = s.pmn := by
  unfold takeContinuation; split; · rfl
  · split_ifs <;> simp
@[simp] theorem takeContinuation_cfg (f : TakenFrame) : (takeContinuation f s).cfg = s.cfg := by
  unfold takeContinuation; split; · rfl
  · split_ifs <;> simp
@[simp] theorem takeContinuation_rstLow (f : TakenFrame) : (takeContinuation f s).rstLow = s.rstLow := by
  unfold takeContinuation; split; · rfl
  · split_ifs <;> simp
@[simp] theorem takeContinuation_freeCount (f : TakenFrame) : (takeContinuation f s).freeCount = s.freeCount := by
  unfold takeContinuation; split; · rfl
  · split_ifs <;> simp
@[simp] theorem takeContinuation_pending (f : TakenFrame) : (takeContinuation f s).pending = s.pending := by
  unfold takeContinuation; split; · rfl
  · split_ifs <;> simp

@[simp] theorem takeFrame_lif (f : TakenFrame) : (takeFrame f s).lif = s.lif := by
  unfold takeFrame; split_ifs <;> simp
@[simp] theorem takeFrame_fru (f : TakenFrame) : (takeFrame f s).fru = s.fru := by
  unfold takeFrame; split_ifs <;> simp
@[simp] theorem takeFrame_pmn (f : TakenFrame) : (takeFrame f s).pmn = s.pmn := by
  unfold takeFrame; split_ifs <;> simp
@[simp] theorem takeFrame_cfg (f : TakenFrame) : (takeFrame f s).cfg = s.cfg := by
  unfold takeFrame; split_ifs <;> simp
@[simp] theorem takeFrame_rstLow (f : TakenFrame) : (takeFrame f s).rstLow = s.rstLow := by
  unfold takeFrame; split_ifs <;> simp
@[simp] theorem takeFrame_freeCount (f : TakenFrame) : (takeFrame f s).freeCount = s.freeCount := by
  unfold takeFrame; split_ifs <;> simp
@[simp] theorem takeFrame_pending (f : TakenFrame) : (takeFrame f s).pending = s.pending := by
  unfold takeFrame; split_ifs <;> simp

@[simp] theorem ageOut_lif (which : Entry → Bool) (p : Phase) (c : Cycle) : (ageOut which p c s).lif = s.lif := by
  simp [ageOut]
@[simp] theorem ageOut_fru (which : Entry → Bool) (p : Phase) (c : Cycle) : (ageOut which p c s).fru = s.fru := by
  simp [ageOut]
@[simp] theorem ageOut_pmn (which : Entry → Bool) (p : Phase) (c : Cycle) : (ageOut which p c s).pmn = s.pmn := by
  simp [ageOut]
@[simp] theorem ageOut_lpt (which : Entry → Bool) (p : Phase) (c : Cycle) : (ageOut which p c s).lpt = s.lpt := by
  simp [ageOut]
@[simp] theorem ageOut_cfg (which : Entry → Bool) (p : Phase) (c : Cycle) : (ageOut which p c s).cfg = s.cfg := by
  simp [ageOut]
@[simp] theorem ageOut_rstLow (which : Entry → Bool) (p : Phase) (c : Cycle) : (ageOut which p c s).rstLow = s.rstLow := by
  simp [ageOut]
@[simp] theorem ageOut_freeCount (which : Entry → Bool) (p : Phase) (c : Cycle) : (ageOut which p c s).freeCount = s.freeCount := by
  simp [ageOut]
@[simp] theorem ageOut_pending (which : Entry → Bool) (p : Phase) (c : Cycle) : (ageOut which p c s).pending = s.pending := by
  simp [ageOut]

@[simp] theorem rxuBoundary_lif (p : Phase) (c : Cycle) : (rxuBoundary p c s).lif = s.lif := by
  simp [rxuBoundary]
@[simp] theorem rxuBoundary_fru (p : Phase) (c : Cycle) : (rxuBoundary p c s).fru = s.fru := by
  simp [rxuBoundary]
@[simp] theorem rxuBoundary_pmn (p : Phase) (c : Cycle) : (rxuBoundary p c s).pmn = s.pmn := by
  simp [rxuBoundary]
@[simp] theorem rxuBoundary_cfg (p : Phase) (c : Cycle) : (rxuBoundary p c s).cfg = s.cfg := by
  simp [rxuBoundary]
@[simp] theorem rxuBoundary_rstLow (p : Phase) (c : Cycle) : (rxuBoundary p c s).rstLow = s.rstLow := by
  simp [rxuBoundary]
@[simp] theorem rxuBoundary_freeCount (p : Phase) (c : Cycle) : (rxuBoundary p c s).freeCount = s.freeCount := by
  simp [rxuBoundary]
@[simp] theorem rxuBoundary_pending (p : Phase) (c : Cycle) : (rxuBoundary p c s).pending = s.pending := by
  simp [rxuBoundary]

@[simp] theorem peerLoss_lif (p : Phase) (c : Cycle) (a : Addr) : (peerLoss p c s a).lif = s.lif := by
  simp [peerLoss]
@[simp] theorem peerLoss_fru (p : Phase) (c : Cycle) (a : Addr) : (peerLoss p c s a).fru = s.fru := by
  simp [peerLoss]
@[simp] theorem peerLoss_pmn (p : Phase) (c : Cycle) (a : Addr) : (peerLoss p c s a).pmn = s.pmn := by
  simp [peerLoss]
@[simp] theorem peerLoss_lpt (p : Phase) (c : Cycle) (a : Addr) : (peerLoss p c s a).lpt = s.lpt := by
  simp [peerLoss]
@[simp] theorem peerLoss_cfg (p : Phase) (c : Cycle) (a : Addr) : (peerLoss p c s a).cfg = s.cfg := by
  simp [peerLoss]
@[simp] theorem peerLoss_rstLow (p : Phase) (c : Cycle) (a : Addr) : (peerLoss p c s a).rstLow = s.rstLow := by
  simp [peerLoss]
@[simp] theorem peerLoss_freeCount (p : Phase) (c : Cycle) (a : Addr) : (peerLoss p c s a).freeCount = s.freeCount := by
  simp [peerLoss]
@[simp] theorem peerLoss_pending (p : Phase) (c : Cycle) (a : Addr) : (peerLoss p c s a).pending = s.pending := by
  simp [peerLoss]

/-! ### Peer Monitor -/

@[simp] theorem peerLosses_lif (p : Phase) (c : Cycle) (as : List Addr) : (as.foldl (peerLoss p c) s).lif = s.lif := by
  induction as generalizing s with
  | nil => rfl
  | cons a as ih => rw [List.foldl_cons, ih]; simp
@[simp] theorem peerLosses_fru (p : Phase) (c : Cycle) (as : List Addr) : (as.foldl (peerLoss p c) s).fru = s.fru := by
  induction as generalizing s with
  | nil => rfl
  | cons a as ih => rw [List.foldl_cons, ih]; simp
@[simp] theorem peerLosses_pmn (p : Phase) (c : Cycle) (as : List Addr) : (as.foldl (peerLoss p c) s).pmn = s.pmn := by
  induction as generalizing s with
  | nil => rfl
  | cons a as ih => rw [List.foldl_cons, ih]; simp
@[simp] theorem peerLosses_lpt (p : Phase) (c : Cycle) (as : List Addr) : (as.foldl (peerLoss p c) s).lpt = s.lpt := by
  induction as generalizing s with
  | nil => rfl
  | cons a as ih => rw [List.foldl_cons, ih]; simp
@[simp] theorem peerLosses_cfg (p : Phase) (c : Cycle) (as : List Addr) : (as.foldl (peerLoss p c) s).cfg = s.cfg := by
  induction as generalizing s with
  | nil => rfl
  | cons a as ih => rw [List.foldl_cons, ih]; simp
@[simp] theorem peerLosses_rstLow (p : Phase) (c : Cycle) (as : List Addr) : (as.foldl (peerLoss p c) s).rstLow = s.rstLow := by
  induction as generalizing s with
  | nil => rfl
  | cons a as ih => rw [List.foldl_cons, ih]; simp
@[simp] theorem peerLosses_freeCount (p : Phase) (c : Cycle) (as : List Addr) : (as.foldl (peerLoss p c) s).freeCount = s.freeCount := by
  induction as generalizing s with
  | nil => rfl
  | cons a as ih => rw [List.foldl_cons, ih]; simp
@[simp] theorem peerLosses_pending (p : Phase) (c : Cycle) (as : List Addr) : (as.foldl (peerLoss p c) s).pending = s.pending := by
  induction as generalizing s with
  | nil => rfl
  | cons a as ih => rw [List.foldl_cons, ih]; simp

@[simp] theorem pmnBoundary_lif (whole : Bool) (p : Phase) (c : Cycle) : (pmnBoundary whole p c s).lif = s.lif := by
  simp [pmnBoundary]
@[simp] theorem pmnBoundary_fru (whole : Bool) (p : Phase) (c : Cycle) : (pmnBoundary whole p c s).fru = s.fru := by
  simp [pmnBoundary]
@[simp] theorem pmnBoundary_lpt (whole : Bool) (p : Phase) (c : Cycle) : (pmnBoundary whole p c s).lpt = s.lpt := by
  simp [pmnBoundary]
@[simp] theorem pmnBoundary_cfg (whole : Bool) (p : Phase) (c : Cycle) : (pmnBoundary whole p c s).cfg = s.cfg := by
  simp [pmnBoundary]
@[simp] theorem pmnBoundary_rstLow (whole : Bool) (p : Phase) (c : Cycle) : (pmnBoundary whole p c s).rstLow = s.rstLow := by
  simp [pmnBoundary]
@[simp] theorem pmnBoundary_freeCount (whole : Bool) (p : Phase) (c : Cycle) : (pmnBoundary whole p c s).freeCount = s.freeCount := by
  simp [pmnBoundary]
@[simp] theorem pmnBoundary_pending (whole : Bool) (p : Phase) (c : Cycle) : (pmnBoundary whole p c s).pending = s.pending := by
  simp [pmnBoundary]

/-! ### Phase ends -/

@[simp] theorem runTask_lif (w : Work) (whole : Bool) (p : Phase) (c : Cycle) (t : Task) : (runTask w whole p c t s).lif = s.lif := by
  cases t <;> simp only [runTask] <;> (try split) <;> simp
@[simp] theorem runTask_fru (w : Work) (whole : Bool) (p : Phase) (c : Cycle) (t : Task) : (runTask w whole p c t s).fru = s.fru := by
  cases t <;> simp only [runTask] <;> (try split) <;> simp
@[simp] theorem runTask_cfg (w : Work) (whole : Bool) (p : Phase) (c : Cycle) (t : Task) : (runTask w whole p c t s).cfg = s.cfg := by
  cases t <;> simp only [runTask] <;> (try split) <;> simp
@[simp] theorem runTask_rstLow (w : Work) (whole : Bool) (p : Phase) (c : Cycle) (t : Task) : (runTask w whole p c t s).rstLow = s.rstLow := by
  cases t <;> simp only [runTask] <;> (try split) <;> simp
@[simp] theorem runTask_freeCount (w : Work) (whole : Bool) (p : Phase) (c : Cycle) (t : Task) : (runTask w whole p c t s).freeCount = s.freeCount := by
  cases t <;> simp only [runTask] <;> (try split) <;> simp
@[simp] theorem runTask_pending (w : Work) (whole : Bool) (p : Phase) (c : Cycle) (t : Task) : (runTask w whole p c t s).pending = s.pending := by
  cases t <;> simp only [runTask] <;> (try split) <;> simp

@[simp] theorem runTasks_lif (w : Work) (whole : Bool) (p : Phase) (c : Cycle) (ts : List Task) : (runTasks w whole p c ts s).lif = s.lif := by
  unfold runTasks
  induction ts generalizing s with
  | nil => rfl
  | cons t ts ih => rw [List.foldl_cons, ih]; simp
@[simp] theorem runTasks_fru (w : Work) (whole : Bool) (p : Phase) (c : Cycle) (ts : List Task) : (runTasks w whole p c ts s).fru = s.fru := by
  unfold runTasks
  induction ts generalizing s with
  | nil => rfl
  | cons t ts ih => rw [List.foldl_cons, ih]; simp
@[simp] theorem runTasks_cfg (w : Work) (whole : Bool) (p : Phase) (c : Cycle) (ts : List Task) : (runTasks w whole p c ts s).cfg = s.cfg := by
  unfold runTasks
  induction ts generalizing s with
  | nil => rfl
  | cons t ts ih => rw [List.foldl_cons, ih]; simp
@[simp] theorem runTasks_rstLow (w : Work) (whole : Bool) (p : Phase) (c : Cycle) (ts : List Task) : (runTasks w whole p c ts s).rstLow = s.rstLow := by
  unfold runTasks
  induction ts generalizing s with
  | nil => rfl
  | cons t ts ih => rw [List.foldl_cons, ih]; simp
@[simp] theorem runTasks_freeCount (w : Work) (whole : Bool) (p : Phase) (c : Cycle) (ts : List Task) : (runTasks w whole p c ts s).freeCount = s.freeCount := by
  unfold runTasks
  induction ts generalizing s with
  | nil => rfl
  | cons t ts ih => rw [List.foldl_cons, ih]; simp
@[simp] theorem runTasks_pending (w : Work) (whole : Bool) (p : Phase) (c : Cycle) (ts : List Task) : (runTasks w whole p c ts s).pending = s.pending := by
  unfold runTasks
  induction ts generalizing s with
  | nil => rfl
  | cons t ts ih => rw [List.foldl_cons, ih]; simp

@[simp] theorem countAtEnd_lif (o : Config.FrameEndOrder) (b : Bool) (n : Nat) : (countAtEnd o b n s).lif = s.lif := by
  unfold countAtEnd; split_ifs <;> rfl
@[simp] theorem countAtEnd_fru (o : Config.FrameEndOrder) (b : Bool) (n : Nat) : (countAtEnd o b n s).fru = s.fru := by
  unfold countAtEnd; split_ifs <;> rfl
@[simp] theorem countAtEnd_ctr (o : Config.FrameEndOrder) (b : Bool) (n : Nat) : (countAtEnd o b n s).ctr = s.ctr := by
  unfold countAtEnd; split_ifs <;> rfl
@[simp] theorem countAtEnd_stc (o : Config.FrameEndOrder) (b : Bool) (n : Nat) : (countAtEnd o b n s).stc = s.stc := by
  unfold countAtEnd; split_ifs <;> rfl
@[simp] theorem countAtEnd_txs (o : Config.FrameEndOrder) (b : Bool) (n : Nat) : (countAtEnd o b n s).txs = s.txs := by
  unfold countAtEnd; split_ifs <;> rfl
@[simp] theorem countAtEnd_rxu (o : Config.FrameEndOrder) (b : Bool) (n : Nat) : (countAtEnd o b n s).rxu = s.rxu := by
  unfold countAtEnd; split_ifs <;> rfl
@[simp] theorem countAtEnd_pmn (o : Config.FrameEndOrder) (b : Bool) (n : Nat) : (countAtEnd o b n s).pmn = s.pmn := by
  unfold countAtEnd; split_ifs <;> rfl
@[simp] theorem countAtEnd_lpt (o : Config.FrameEndOrder) (b : Bool) (n : Nat) : (countAtEnd o b n s).lpt = s.lpt := by
  unfold countAtEnd; split_ifs <;> rfl
@[simp] theorem countAtEnd_cfg (o : Config.FrameEndOrder) (b : Bool) (n : Nat) : (countAtEnd o b n s).cfg = s.cfg := by
  unfold countAtEnd; split_ifs <;> rfl
@[simp] theorem countAtEnd_rstLow (o : Config.FrameEndOrder) (b : Bool) (n : Nat) : (countAtEnd o b n s).rstLow = s.rstLow := by
  unfold countAtEnd; split_ifs <;> rfl
@[simp] theorem countAtEnd_freeCount (o : Config.FrameEndOrder) (b : Bool) (n : Nat) : (countAtEnd o b n s).freeCount = s.freeCount := by
  unfold countAtEnd; split_ifs <;> rfl
@[simp] theorem countAtEnd_pending (o : Config.FrameEndOrder) (b : Bool) (n : Nat) : (countAtEnd o b n s).pending = s.pending := by
  unfold countAtEnd; split_ifs <;> rfl

@[simp] theorem creditHeard_lif (w : Work) : (creditHeard w s).lif = s.lif := by
  unfold creditHeard; split <;> rfl
@[simp] theorem creditHeard_fru (w : Work) : (creditHeard w s).fru = s.fru := by
  unfold creditHeard; split <;> rfl
@[simp] theorem creditHeard_ctr (w : Work) : (creditHeard w s).ctr = s.ctr := by
  unfold creditHeard; split <;> rfl
@[simp] theorem creditHeard_stc (w : Work) : (creditHeard w s).stc = s.stc := by
  unfold creditHeard; split <;> rfl
@[simp] theorem creditHeard_txs (w : Work) : (creditHeard w s).txs = s.txs := by
  unfold creditHeard; split <;> rfl
@[simp] theorem creditHeard_rxu (w : Work) : (creditHeard w s).rxu = s.rxu := by
  unfold creditHeard; split <;> rfl
@[simp] theorem creditHeard_flt (w : Work) : (creditHeard w s).flt = s.flt := by
  unfold creditHeard; split <;> rfl
@[simp] theorem creditHeard_lpt (w : Work) : (creditHeard w s).lpt = s.lpt := by
  unfold creditHeard; split <;> rfl
@[simp] theorem creditHeard_cfg (w : Work) : (creditHeard w s).cfg = s.cfg := by
  unfold creditHeard; split <;> rfl
@[simp] theorem creditHeard_rstLow (w : Work) : (creditHeard w s).rstLow = s.rstLow := by
  unfold creditHeard; split <;> rfl
@[simp] theorem creditHeard_freeCount (w : Work) : (creditHeard w s).freeCount = s.freeCount := by
  unfold creditHeard; split <;> rfl
@[simp] theorem creditHeard_pending (w : Work) : (creditHeard w s).pending = s.pending := by
  unfold creditHeard; split <;> rfl

/-! ### Transmission -/

@[simp] theorem startTransmission_ctr (k : FrameKind) (b : List Byte) : (startTransmission k b s).ctr = s.ctr := by
  rfl
@[simp] theorem startTransmission_stc (k : FrameKind) (b : List Byte) : (startTransmission k b s).stc = s.stc := by
  rfl
@[simp] theorem startTransmission_txs (k : FrameKind) (b : List Byte) : (startTransmission k b s).txs = s.txs := by
  rfl
@[simp] theorem startTransmission_rxu (k : FrameKind) (b : List Byte) : (startTransmission k b s).rxu = s.rxu := by
  rfl
@[simp] theorem startTransmission_pmn (k : FrameKind) (b : List Byte) : (startTransmission k b s).pmn = s.pmn := by
  rfl
@[simp] theorem startTransmission_flt (k : FrameKind) (b : List Byte) : (startTransmission k b s).flt = s.flt := by
  rfl
@[simp] theorem startTransmission_lpt (k : FrameKind) (b : List Byte) : (startTransmission k b s).lpt = s.lpt := by
  rfl
@[simp] theorem startTransmission_cfg (k : FrameKind) (b : List Byte) : (startTransmission k b s).cfg = s.cfg := by
  rfl
@[simp] theorem startTransmission_rstLow (k : FrameKind) (b : List Byte) : (startTransmission k b s).rstLow = s.rstLow := by
  rfl
@[simp] theorem startTransmission_freeCount (k : FrameKind) (b : List Byte) : (startTransmission k b s).freeCount = s.freeCount := by
  rfl
@[simp] theorem startTransmission_pending (k : FrameKind) (b : List Byte) : (startTransmission k b s).pending = s.pending := by
  rfl

@[simp] theorem select_lif (n : Nat) (floor : Cls) : ((select n floor s).1).lif = s.lif := by
  induction n generalizing s with
  | zero => rfl
  | succ n ih =>
    unfold select
    split
    · rfl
    · split_ifs
      · rfl
      · rw [ih]; simp
      · rfl
@[simp] theorem select_fru (n : Nat) (floor : Cls) : ((select n floor s).1).fru = s.fru := by
  induction n generalizing s with
  | zero => rfl
  | succ n ih =>
    unfold select
    split
    · rfl
    · split_ifs
      · rfl
      · rw [ih]; simp
      · rfl
@[simp] theorem select_ctr (n : Nat) (floor : Cls) : ((select n floor s).1).ctr = s.ctr := by
  induction n generalizing s with
  | zero => rfl
  | succ n ih =>
    unfold select
    split
    · rfl
    · split_ifs
      · rfl
      · rw [ih]; simp
      · rfl
@[simp] theorem select_stc (n : Nat) (floor : Cls) : ((select n floor s).1).stc = s.stc := by
  induction n generalizing s with
  | zero => rfl
  | succ n ih =>
    unfold select
    split
    · rfl
    · split_ifs
      · rfl
      · rw [ih]; simp
      · rfl
@[simp] theorem select_rxu (n : Nat) (floor : Cls) : ((select n floor s).1).rxu = s.rxu := by
  induction n generalizing s with
  | zero => rfl
  | succ n ih =>
    unfold select
    split
    · rfl
    · split_ifs
      · rfl
      · rw [ih]; simp
      · rfl
@[simp] theorem select_pmn (n : Nat) (floor : Cls) : ((select n floor s).1).pmn = s.pmn := by
  induction n generalizing s with
  | zero => rfl
  | succ n ih =>
    unfold select
    split
    · rfl
    · split_ifs
      · rfl
      · rw [ih]; simp
      · rfl
@[simp] theorem select_flt (n : Nat) (floor : Cls) : ((select n floor s).1).flt = s.flt := by
  induction n generalizing s with
  | zero => rfl
  | succ n ih =>
    unfold select
    split
    · rfl
    · split_ifs
      · rfl
      · rw [ih]; simp
      · rfl
@[simp] theorem select_cfg (n : Nat) (floor : Cls) : ((select n floor s).1).cfg = s.cfg := by
  induction n generalizing s with
  | zero => rfl
  | succ n ih =>
    unfold select
    split
    · rfl
    · split_ifs
      · rfl
      · rw [ih]; simp
      · rfl
@[simp] theorem select_rstLow (n : Nat) (floor : Cls) : ((select n floor s).1).rstLow = s.rstLow := by
  induction n generalizing s with
  | zero => rfl
  | succ n ih =>
    unfold select
    split
    · rfl
    · split_ifs
      · rfl
      · rw [ih]; simp
      · rfl
@[simp] theorem select_freeCount (n : Nat) (floor : Cls) : ((select n floor s).1).freeCount = s.freeCount := by
  induction n generalizing s with
  | zero => rfl
  | succ n ih =>
    unfold select
    split
    · rfl
    · split_ifs
      · rfl
      · rw [ih]; simp
      · rfl
@[simp] theorem select_pending (n : Nat) (floor : Cls) : ((select n floor s).1).pending = s.pending := by
  induction n generalizing s with
  | zero => rfl
  | succ n ih =>
    unfold select
    split
    · rfl
    · split_ifs
      · rfl
      · rw [ih]; simp
      · rfl

@[simp] theorem sendRequest_ctr (r : FrameRequest) : (sendRequest r s).ctr = s.ctr := by
  unfold sendRequest; split
  · cases r with
    | fill => simp
    | data t i l => simp only; split <;> simp
  · rfl
@[simp] theorem sendRequest_stc (r : FrameRequest) : (sendRequest r s).stc = s.stc := by
  unfold sendRequest; split
  · cases r with
    | fill => simp
    | data t i l => simp only; split <;> simp
  · rfl
@[simp] theorem sendRequest_rxu (r : FrameRequest) : (sendRequest r s).rxu = s.rxu := by
  unfold sendRequest; split
  · cases r with
    | fill => simp
    | data t i l => simp only; split <;> simp
  · rfl
@[simp] theorem sendRequest_pmn (r : FrameRequest) : (sendRequest r s).pmn = s.pmn := by
  unfold sendRequest; split
  · cases r with
    | fill => simp
    | data t i l => simp only; split <;> simp
  · rfl
@[simp] theorem sendRequest_flt (r : FrameRequest) : (sendRequest r s).flt = s.flt := by
  unfold sendRequest; split
  · cases r with
    | fill => simp
    | data t i l => simp only; split <;> simp
  · rfl
@[simp] theorem sendRequest_lpt (r : FrameRequest) : (sendRequest r s).lpt = s.lpt := by
  unfold sendRequest; split
  · cases r with
    | fill => simp
    | data t i l => simp only; split <;> simp
  · rfl
@[simp] theorem sendRequest_cfg (r : FrameRequest) : (sendRequest r s).cfg = s.cfg := by
  unfold sendRequest; split
  · cases r with
    | fill => simp
    | data t i l => simp only; split <;> simp
  · rfl
@[simp] theorem sendRequest_rstLow (r : FrameRequest) : (sendRequest r s).rstLow = s.rstLow := by
  unfold sendRequest; split
  · cases r with
    | fill => simp
    | data t i l => simp only; split <;> simp
  · rfl
@[simp] theorem sendRequest_freeCount (r : FrameRequest) : (sendRequest r s).freeCount = s.freeCount := by
  unfold sendRequest; split
  · cases r with
    | fill => simp
    | data t i l => simp only; split <;> simp
  · rfl
@[simp] theorem sendRequest_pending (r : FrameRequest) : (sendRequest r s).pending = s.pending := by
  unfold sendRequest; split
  · cases r with
    | fill => simp
    | data t i l => simp only; split <;> simp
  · rfl

@[simp] theorem ownPhaseStart_ctr (floor : Cls) : (ownPhaseStart floor s).ctr = s.ctr := by
  simp [ownPhaseStart]
@[simp] theorem ownPhaseStart_stc (floor : Cls) : (ownPhaseStart floor s).stc = s.stc := by
  simp [ownPhaseStart]
@[simp] theorem ownPhaseStart_rxu (floor : Cls) : (ownPhaseStart floor s).rxu = s.rxu := by
  simp [ownPhaseStart]
@[simp] theorem ownPhaseStart_pmn (floor : Cls) : (ownPhaseStart floor s).pmn = s.pmn := by
  simp [ownPhaseStart]
@[simp] theorem ownPhaseStart_flt (floor : Cls) : (ownPhaseStart floor s).flt = s.flt := by
  simp [ownPhaseStart]
@[simp] theorem ownPhaseStart_cfg (floor : Cls) : (ownPhaseStart floor s).cfg = s.cfg := by
  simp [ownPhaseStart]
@[simp] theorem ownPhaseStart_rstLow (floor : Cls) : (ownPhaseStart floor s).rstLow = s.rstLow := by
  simp [ownPhaseStart]
@[simp] theorem ownPhaseStart_freeCount (floor : Cls) : (ownPhaseStart floor s).freeCount = s.freeCount := by
  simp [ownPhaseStart]
@[simp] theorem ownPhaseStart_pending (floor : Cls) : (ownPhaseStart floor s).pending = s.pending := by
  simp [ownPhaseStart]

@[simp] theorem phaseStart_stc : (phaseStart s).stc = s.stc := by
  unfold phaseStart; simp only; split
  · split_ifs <;> simp
  · rfl
@[simp] theorem phaseStart_rxu : (phaseStart s).rxu = s.rxu := by
  unfold phaseStart; simp only; split
  · split_ifs <;> simp
  · rfl
@[simp] theorem phaseStart_pmn : (phaseStart s).pmn = s.pmn := by
  unfold phaseStart; simp only; split
  · split_ifs <;> simp
  · rfl
@[simp] theorem phaseStart_flt : (phaseStart s).flt = s.flt := by
  unfold phaseStart; simp only; split
  · split_ifs <;> simp
  · rfl
@[simp] theorem phaseStart_cfg : (phaseStart s).cfg = s.cfg := by
  unfold phaseStart; simp only; split
  · split_ifs <;> simp
  · rfl
@[simp] theorem phaseStart_rstLow : (phaseStart s).rstLow = s.rstLow := by
  unfold phaseStart; simp only; split
  · split_ifs <;> simp
  · rfl
@[simp] theorem phaseStart_freeCount : (phaseStart s).freeCount = s.freeCount := by
  unfold phaseStart; simp only; split
  · split_ifs <;> simp
  · rfl
@[simp] theorem phaseStart_pending : (phaseStart s).pending = s.pending := by
  unfold phaseStart; simp only; split
  · split_ifs <;> simp
  · rfl

@[simp] theorem requestCold_txs : (requestCold s).txs = s.txs := by
  unfold requestCold; split_ifs <;> simp
@[simp] theorem requestCold_rxu : (requestCold s).rxu = s.rxu := by
  unfold requestCold; split_ifs <;> simp
@[simp] theorem requestCold_pmn : (requestCold s).pmn = s.pmn := by
  unfold requestCold; split_ifs <;> simp
@[simp] theorem requestCold_flt : (requestCold s).flt = s.flt := by
  unfold requestCold; split_ifs <;> simp
@[simp] theorem requestCold_lpt : (requestCold s).lpt = s.lpt := by
  unfold requestCold; split_ifs <;> simp
@[simp] theorem requestCold_cfg : (requestCold s).cfg = s.cfg := by
  unfold requestCold; split_ifs <;> simp
@[simp] theorem requestCold_rstLow : (requestCold s).rstLow = s.rstLow := by
  unfold requestCold; split_ifs <;> simp
@[simp] theorem requestCold_freeCount : (requestCold s).freeCount = s.freeCount := by
  unfold requestCold; split_ifs <;> simp
@[simp] theorem requestCold_pending : (requestCold s).pending = s.pending := by
  unfold requestCold; split_ifs <;> simp

/-! ### Phase ends and frame ends -/

@[simp] theorem phaseEndWith_cfg (o : Config.FrameEndOrder) (w : Work) : (phaseEndWith o w s).cfg = s.cfg := by
  unfold phaseEndWith; simp only; split_ifs <;> simp
@[simp] theorem phaseEndWith_rstLow (o : Config.FrameEndOrder) (w : Work) : (phaseEndWith o w s).rstLow = s.rstLow := by
  unfold phaseEndWith; simp only; split_ifs <;> simp
@[simp] theorem phaseEndWith_freeCount (o : Config.FrameEndOrder) (w : Work) : (phaseEndWith o w s).freeCount = s.freeCount := by
  unfold phaseEndWith; simp only; split_ifs <;> simp
@[simp] theorem phaseEndWith_pending (o : Config.FrameEndOrder) (w : Work) : (phaseEndWith o w s).pending = s.pending := by
  unfold phaseEndWith; simp only; split_ifs <;> simp

theorem useOrder_keeps (w : Work) :
    useOrder w s = s.withFreeCount (useOrder w s).freeCount := by
  unfold useOrder; split_ifs <;> rfl

@[simp] theorem useOrder_lif (w : Work) : (useOrder w s).lif = s.lif := by
  unfold useOrder; split_ifs <;> rfl
@[simp] theorem useOrder_fru (w : Work) : (useOrder w s).fru = s.fru := by
  unfold useOrder; split_ifs <;> rfl
@[simp] theorem useOrder_ctr (w : Work) : (useOrder w s).ctr = s.ctr := by
  unfold useOrder; split_ifs <;> rfl
@[simp] theorem useOrder_stc (w : Work) : (useOrder w s).stc = s.stc := by
  unfold useOrder; split_ifs <;> rfl
@[simp] theorem useOrder_txs (w : Work) : (useOrder w s).txs = s.txs := by
  unfold useOrder; split_ifs <;> rfl
@[simp] theorem useOrder_rxu (w : Work) : (useOrder w s).rxu = s.rxu := by
  unfold useOrder; split_ifs <;> rfl
@[simp] theorem useOrder_pmn (w : Work) : (useOrder w s).pmn = s.pmn := by
  unfold useOrder; split_ifs <;> rfl
@[simp] theorem useOrder_flt (w : Work) : (useOrder w s).flt = s.flt := by
  unfold useOrder; split_ifs <;> rfl
@[simp] theorem useOrder_lpt (w : Work) : (useOrder w s).lpt = s.lpt := by
  unfold useOrder; split_ifs <;> rfl
@[simp] theorem useOrder_cfg (w : Work) : (useOrder w s).cfg = s.cfg := by
  unfold useOrder; split_ifs <;> rfl
@[simp] theorem useOrder_rstLow (w : Work) : (useOrder w s).rstLow = s.rstLow := by
  unfold useOrder; split_ifs <;> rfl
@[simp] theorem useOrder_pending (w : Work) : (useOrder w s).pending = s.pending := by
  unfold useOrder; split_ifs <;> rfl

@[simp] theorem phaseEnd_cfg (w : Work) : (phaseEnd w s).cfg = s.cfg := by
  simp [phaseEnd]
@[simp] theorem phaseEnd_rstLow (w : Work) : (phaseEnd w s).rstLow = s.rstLow := by
  simp [phaseEnd]
@[simp] theorem phaseEnd_pending (w : Work) : (phaseEnd w s).pending = s.pending := by
  simp [phaseEnd]

@[simp] theorem dropUnheard_lif : (dropUnheard s).lif = s.lif := rfl
@[simp] theorem dropUnheard_ctr : (dropUnheard s).ctr = s.ctr := rfl
@[simp] theorem dropUnheard_stc : (dropUnheard s).stc = s.stc := rfl
@[simp] theorem dropUnheard_txs : (dropUnheard s).txs = s.txs := rfl
@[simp] theorem dropUnheard_rxu : (dropUnheard s).rxu = s.rxu := rfl
@[simp] theorem dropUnheard_pmn : (dropUnheard s).pmn = s.pmn := rfl
@[simp] theorem dropUnheard_flt : (dropUnheard s).flt = s.flt := rfl
@[simp] theorem dropUnheard_lpt : (dropUnheard s).lpt = s.lpt := rfl
@[simp] theorem dropUnheard_cfg : (dropUnheard s).cfg = s.cfg := rfl
@[simp] theorem dropUnheard_rstLow : (dropUnheard s).rstLow = s.rstLow := rfl
@[simp] theorem dropUnheard_freeCount : (dropUnheard s).freeCount = s.freeCount := rfl
@[simp] theorem dropUnheard_pending : (dropUnheard s).pending = s.pending := rfl
@[simp] theorem dropUnheard_fru : (dropUnheard s).fru = { s.fru with frame := s.fru.frame.filter Gather.begun } := rfl

@[simp] theorem skipExpire_cfg : (skipExpire s).cfg = s.cfg := by
  simp [skipExpire]
@[simp] theorem skipExpire_rstLow : (skipExpire s).rstLow = s.rstLow := by
  simp [skipExpire]
@[simp] theorem skipExpire_pending : (skipExpire s).pending = s.pending := by
  simp [skipExpire]

@[simp] theorem dropFrame_lif : (dropFrame s).lif = s.lif := by
  rfl
@[simp] theorem dropFrame_ctr : (dropFrame s).ctr = s.ctr := by
  rfl
@[simp] theorem dropFrame_stc : (dropFrame s).stc = s.stc := by
  rfl
@[simp] theorem dropFrame_txs : (dropFrame s).txs = s.txs := by
  rfl
@[simp] theorem dropFrame_pmn : (dropFrame s).pmn = s.pmn := by
  rfl
@[simp] theorem dropFrame_flt : (dropFrame s).flt = s.flt := by
  rfl
@[simp] theorem dropFrame_lpt : (dropFrame s).lpt = s.lpt := by
  rfl
@[simp] theorem dropFrame_cfg : (dropFrame s).cfg = s.cfg := by
  rfl
@[simp] theorem dropFrame_rstLow : (dropFrame s).rstLow = s.rstLow := by
  rfl
@[simp] theorem dropFrame_freeCount : (dropFrame s).freeCount = s.freeCount := by
  rfl
@[simp] theorem dropFrame_pending : (dropFrame s).pending = s.pending := by
  rfl

@[simp] theorem trackClean_fru (b : List Byte) : (trackClean b s).fru = s.fru := by
  unfold trackClean; simp only; split_ifs <;> simp
@[simp] theorem trackClean_txs (b : List Byte) : (trackClean b s).txs = s.txs := by
  unfold trackClean; simp only; split_ifs <;> simp
@[simp] theorem trackClean_rxu (b : List Byte) : (trackClean b s).rxu = s.rxu := by
  unfold trackClean; simp only; split_ifs <;> simp
@[simp] theorem trackClean_pmn (b : List Byte) : (trackClean b s).pmn = s.pmn := by
  unfold trackClean; simp only; split_ifs <;> simp
@[simp] theorem trackClean_flt (b : List Byte) : (trackClean b s).flt = s.flt := by
  unfold trackClean; simp only; split_ifs <;> simp
@[simp] theorem trackClean_lpt (b : List Byte) : (trackClean b s).lpt = s.lpt := by
  unfold trackClean; simp only; split_ifs <;> simp
@[simp] theorem trackClean_cfg (b : List Byte) : (trackClean b s).cfg = s.cfg := by
  unfold trackClean; simp only; split_ifs <;> simp
@[simp] theorem trackClean_rstLow (b : List Byte) : (trackClean b s).rstLow = s.rstLow := by
  unfold trackClean; simp only; split_ifs <;> simp
@[simp] theorem trackClean_freeCount (b : List Byte) : (trackClean b s).freeCount = s.freeCount := by
  unfold trackClean; simp only; split_ifs <;> simp
@[simp] theorem trackClean_pending (b : List Byte) : (trackClean b s).pending = s.pending := by
  unfold trackClean; simp only; split_ifs <;> simp

@[simp] theorem notePeer_lif (b : List Byte) (e : Option Nat) : (notePeer b e s).lif = s.lif := by
  unfold notePeer; simp only; split <;> rfl
@[simp] theorem notePeer_fru (b : List Byte) (e : Option Nat) : (notePeer b e s).fru = s.fru := by
  unfold notePeer; simp only; split <;> rfl
@[simp] theorem notePeer_ctr (b : List Byte) (e : Option Nat) : (notePeer b e s).ctr = s.ctr := by
  unfold notePeer; simp only; split <;> rfl
@[simp] theorem notePeer_stc (b : List Byte) (e : Option Nat) : (notePeer b e s).stc = s.stc := by
  unfold notePeer; simp only; split <;> rfl
@[simp] theorem notePeer_txs (b : List Byte) (e : Option Nat) : (notePeer b e s).txs = s.txs := by
  unfold notePeer; simp only; split <;> rfl
@[simp] theorem notePeer_rxu (b : List Byte) (e : Option Nat) : (notePeer b e s).rxu = s.rxu := by
  unfold notePeer; simp only; split <;> rfl
@[simp] theorem notePeer_flt (b : List Byte) (e : Option Nat) : (notePeer b e s).flt = s.flt := by
  unfold notePeer; simp only; split <;> rfl
@[simp] theorem notePeer_lpt (b : List Byte) (e : Option Nat) : (notePeer b e s).lpt = s.lpt := by
  unfold notePeer; simp only; split <;> rfl
@[simp] theorem notePeer_cfg (b : List Byte) (e : Option Nat) : (notePeer b e s).cfg = s.cfg := by
  unfold notePeer; simp only; split <;> rfl
@[simp] theorem notePeer_rstLow (b : List Byte) (e : Option Nat) : (notePeer b e s).rstLow = s.rstLow := by
  unfold notePeer; simp only; split <;> rfl
@[simp] theorem notePeer_freeCount (b : List Byte) (e : Option Nat) : (notePeer b e s).freeCount = s.freeCount := by
  unfold notePeer; simp only; split <;> rfl
@[simp] theorem notePeer_pending (b : List Byte) (e : Option Nat) : (notePeer b e s).pending = s.pending := by
  unfold notePeer; simp only; split <;> rfl

@[simp] theorem noteFault_lif (b : List Byte) (x : FrameOutcome) : (noteFault b x s).lif = s.lif := by
  unfold noteFault; split <;> rfl
@[simp] theorem noteFault_fru (b : List Byte) (x : FrameOutcome) : (noteFault b x s).fru = s.fru := by
  unfold noteFault; split <;> rfl
@[simp] theorem noteFault_ctr (b : List Byte) (x : FrameOutcome) : (noteFault b x s).ctr = s.ctr := by
  unfold noteFault; split <;> rfl
@[simp] theorem noteFault_stc (b : List Byte) (x : FrameOutcome) : (noteFault b x s).stc = s.stc := by
  unfold noteFault; split <;> rfl
@[simp] theorem noteFault_txs (b : List Byte) (x : FrameOutcome) : (noteFault b x s).txs = s.txs := by
  unfold noteFault; split <;> rfl
@[simp] theorem noteFault_rxu (b : List Byte) (x : FrameOutcome) : (noteFault b x s).rxu = s.rxu := by
  unfold noteFault; split <;> rfl
@[simp] theorem noteFault_flt (b : List Byte) (x : FrameOutcome) : (noteFault b x s).flt = s.flt := by
  unfold noteFault; split <;> rfl
@[simp] theorem noteFault_lpt (b : List Byte) (x : FrameOutcome) : (noteFault b x s).lpt = s.lpt := by
  unfold noteFault; split <;> rfl
@[simp] theorem noteFault_cfg (b : List Byte) (x : FrameOutcome) : (noteFault b x s).cfg = s.cfg := by
  unfold noteFault; split <;> rfl
@[simp] theorem noteFault_rstLow (b : List Byte) (x : FrameOutcome) : (noteFault b x s).rstLow = s.rstLow := by
  unfold noteFault; split <;> rfl
@[simp] theorem noteFault_freeCount (b : List Byte) (x : FrameOutcome) : (noteFault b x s).freeCount = s.freeCount := by
  unfold noteFault; split <;> rfl
@[simp] theorem noteFault_pending (b : List Byte) (x : FrameOutcome) : (noteFault b x s).pending = s.pending := by
  unfold noteFault; split <;> rfl

@[simp] theorem cleanFrameEnd_cfg (f : Gather) : (cleanFrameEnd f s).cfg = s.cfg := by
  simp [cleanFrameEnd]
@[simp] theorem cleanFrameEnd_rstLow (f : Gather) : (cleanFrameEnd f s).rstLow = s.rstLow := by
  simp [cleanFrameEnd]
@[simp] theorem cleanFrameEnd_pending (f : Gather) : (cleanFrameEnd f s).pending = s.pending := by
  simp [cleanFrameEnd]

@[simp] theorem faultFrameEnd_cfg (f : Gather) (x : FrameOutcome) (k : FaultKind) : (faultFrameEnd f x k s).cfg = s.cfg := by
  unfold faultFrameEnd; simp only; split_ifs <;> simp
@[simp] theorem faultFrameEnd_rstLow (f : Gather) (x : FrameOutcome) (k : FaultKind) : (faultFrameEnd f x k s).rstLow = s.rstLow := by
  unfold faultFrameEnd; simp only; split_ifs <;> simp
@[simp] theorem faultFrameEnd_pending (f : Gather) (x : FrameOutcome) (k : FaultKind) : (faultFrameEnd f x k s).pending = s.pending := by
  unfold faultFrameEnd; simp only; split_ifs <;> simp

@[simp] theorem ownFrameEnd_cfg : (ownFrameEnd s).cfg = s.cfg := by
  unfold ownFrameEnd; split_ifs <;> simp
@[simp] theorem ownFrameEnd_rstLow : (ownFrameEnd s).rstLow = s.rstLow := by
  unfold ownFrameEnd; split_ifs <;> simp
@[simp] theorem ownFrameEnd_pending : (ownFrameEnd s).pending = s.pending := by
  unfold ownFrameEnd; split_ifs <;> simp

@[simp] theorem endFrame_cfg : (endFrame s).cfg = s.cfg := by
  unfold endFrame; split
  · rfl
  · split_ifs
    · rfl
    · simp
    · simp only; split <;> simp
@[simp] theorem endFrame_rstLow : (endFrame s).rstLow = s.rstLow := by
  unfold endFrame; split
  · rfl
  · split_ifs
    · rfl
    · simp
    · simp only; split <;> simp
@[simp] theorem endFrame_pending : (endFrame s).pending = s.pending := by
  unfold endFrame; split
  · rfl
  · split_ifs
    · rfl
    · simp
    · simp only; split <;> simp

@[simp] theorem dueSkip_cfg : (dueSkip s).cfg = s.cfg := by
  unfold dueSkip; split_ifs <;> simp
@[simp] theorem dueSkip_rstLow : (dueSkip s).rstLow = s.rstLow := by
  unfold dueSkip; split_ifs <;> simp
@[simp] theorem dueSkip_pending : (dueSkip s).pending = s.pending := by
  unfold dueSkip; split_ifs <;> simp

@[simp] theorem afterSample_cfg : (afterSample s).cfg = s.cfg := by
  unfold afterSample; split_ifs <;> simp
@[simp] theorem afterSample_rstLow : (afterSample s).rstLow = s.rstLow := by
  unfold afterSample; split_ifs <;> simp
@[simp] theorem afterSample_pending : (afterSample s).pending = s.pending := by
  unfold afterSample; split_ifs <;> simp

/-! ### Resets and exits -/

@[simp] theorem softResetState_cfg : (softResetState s).cfg = s.cfg := by
  rfl
@[simp] theorem softResetState_rstLow : (softResetState s).rstLow = s.rstLow := by
  rfl
@[simp] theorem softResetState_freeCount : (softResetState s).freeCount = s.freeCount := by
  rfl
@[simp] theorem softResetState_pending : (softResetState s).pending = s.pending := by
  rfl

@[simp] theorem fullResetState_freeCount : (fullResetState s).freeCount = s.freeCount := by
  rfl
@[simp] theorem fullResetState_pending : (fullResetState s).pending = s.pending := by
  rfl

@[simp] theorem finishExit_cfg : (finishExit s).cfg = s.cfg := by
  unfold finishExit; split
  · simp
  · split
    · rfl
    · simp
    · split <;> simp
@[simp] theorem finishExit_rstLow : (finishExit s).rstLow = s.rstLow := by
  unfold finishExit; split
  · simp
  · split
    · rfl
    · simp
    · split <;> simp
@[simp] theorem finishExit_freeCount : (finishExit s).freeCount = s.freeCount := by
  unfold finishExit; split
  · simp
  · split
    · rfl
    · simp
    · split <;> simp
@[simp] theorem finishExit_pending : (finishExit s).pending = s.pending := by
  unfold finishExit; split
  · simp
  · split
    · rfl
    · simp
    · split <;> simp

@[simp] theorem driverOff_fru : (driverOff s).fru = s.fru := by
  rfl
@[simp] theorem driverOff_ctr : (driverOff s).ctr = s.ctr := by
  rfl
@[simp] theorem driverOff_stc : (driverOff s).stc = s.stc := by
  rfl
@[simp] theorem driverOff_txs : (driverOff s).txs = s.txs := by
  rfl
@[simp] theorem driverOff_rxu : (driverOff s).rxu = s.rxu := by
  rfl
@[simp] theorem driverOff_pmn : (driverOff s).pmn = s.pmn := by
  rfl
@[simp] theorem driverOff_flt : (driverOff s).flt = s.flt := by
  rfl
@[simp] theorem driverOff_lpt : (driverOff s).lpt = s.lpt := by
  rfl
@[simp] theorem driverOff_cfg : (driverOff s).cfg = s.cfg := by
  rfl
@[simp] theorem driverOff_rstLow : (driverOff s).rstLow = s.rstLow := by
  rfl
@[simp] theorem driverOff_freeCount : (driverOff s).freeCount = s.freeCount := by
  rfl
@[simp] theorem driverOff_pending : (driverOff s).pending = s.pending := by
  rfl

@[simp] theorem reportClean_fru : (reportClean s).fru = s.fru := by
  unfold reportClean; split <;> simp
@[simp] theorem reportClean_stc : (reportClean s).stc = s.stc := by
  unfold reportClean; split <;> simp
@[simp] theorem reportClean_rxu : (reportClean s).rxu = s.rxu := by
  unfold reportClean; split <;> simp
@[simp] theorem reportClean_pmn : (reportClean s).pmn = s.pmn := by
  unfold reportClean; split <;> simp
@[simp] theorem reportClean_flt : (reportClean s).flt = s.flt := by
  unfold reportClean; split <;> simp
@[simp] theorem reportClean_cfg : (reportClean s).cfg = s.cfg := by
  unfold reportClean; split <;> simp
@[simp] theorem reportClean_rstLow : (reportClean s).rstLow = s.rstLow := by
  unfold reportClean; split <;> simp
@[simp] theorem reportClean_freeCount : (reportClean s).freeCount = s.freeCount := by
  unfold reportClean; split <;> simp
@[simp] theorem reportClean_pending : (reportClean s).pending = s.pending := by
  unfold reportClean; split <;> simp

@[simp] theorem reportFailure_fru : (reportFailure s).fru = s.fru := by
  unfold reportFailure; split <;> (try simp only) <;> (try split_ifs) <;> simp
@[simp] theorem reportFailure_rxu : (reportFailure s).rxu = s.rxu := by
  unfold reportFailure; split <;> (try simp only) <;> (try split_ifs) <;> simp
@[simp] theorem reportFailure_pmn : (reportFailure s).pmn = s.pmn := by
  unfold reportFailure; split <;> (try simp only) <;> (try split_ifs) <;> simp
@[simp] theorem reportFailure_flt : (reportFailure s).flt = s.flt := by
  unfold reportFailure; split <;> (try simp only) <;> (try split_ifs) <;> simp
@[simp] theorem reportFailure_lpt : (reportFailure s).lpt = s.lpt := by
  unfold reportFailure; split <;> (try simp only) <;> (try split_ifs) <;> simp
@[simp] theorem reportFailure_cfg : (reportFailure s).cfg = s.cfg := by
  unfold reportFailure; split <;> (try simp only) <;> (try split_ifs) <;> simp
@[simp] theorem reportFailure_rstLow : (reportFailure s).rstLow = s.rstLow := by
  unfold reportFailure; split <;> (try simp only) <;> (try split_ifs) <;> simp
@[simp] theorem reportFailure_freeCount : (reportFailure s).freeCount = s.freeCount := by
  unfold reportFailure; split <;> (try simp only) <;> (try split_ifs) <;> simp
@[simp] theorem reportFailure_pending : (reportFailure s).pending = s.pending := by
  unfold reportFailure; split <;> (try simp only) <;> (try split_ifs) <;> simp

@[simp] theorem echoFailureWith_fru (b : Bool) (t : Transmission) : (echoFailureWith b t s).fru = s.fru := by
  unfold echoFailureWith; split_ifs <;> simp
@[simp] theorem echoFailureWith_rxu (b : Bool) (t : Transmission) : (echoFailureWith b t s).rxu = s.rxu := by
  unfold echoFailureWith; split_ifs <;> simp
@[simp] theorem echoFailureWith_pmn (b : Bool) (t : Transmission) : (echoFailureWith b t s).pmn = s.pmn := by
  unfold echoFailureWith; split_ifs <;> simp
@[simp] theorem echoFailureWith_lpt (b : Bool) (t : Transmission) : (echoFailureWith b t s).lpt = s.lpt := by
  unfold echoFailureWith; split_ifs <;> simp
@[simp] theorem echoFailureWith_cfg (b : Bool) (t : Transmission) : (echoFailureWith b t s).cfg = s.cfg := by
  unfold echoFailureWith; split_ifs <;> simp
@[simp] theorem echoFailureWith_rstLow (b : Bool) (t : Transmission) : (echoFailureWith b t s).rstLow = s.rstLow := by
  unfold echoFailureWith; split_ifs <;> simp
@[simp] theorem echoFailureWith_freeCount (b : Bool) (t : Transmission) : (echoFailureWith b t s).freeCount = s.freeCount := by
  unfold echoFailureWith; split_ifs <;> simp
@[simp] theorem echoFailureWith_pending (b : Bool) (t : Transmission) : (echoFailureWith b t s).pending = s.pending := by
  unfold echoFailureWith; split_ifs <;> simp

@[simp] theorem lineActivity_lif : (lineActivity s).lif = s.lif := by
  rfl
@[simp] theorem lineActivity_fru : (lineActivity s).fru = s.fru := by
  rfl
@[simp] theorem lineActivity_stc : (lineActivity s).stc = s.stc := by
  rfl
@[simp] theorem lineActivity_txs : (lineActivity s).txs = s.txs := by
  rfl
@[simp] theorem lineActivity_rxu : (lineActivity s).rxu = s.rxu := by
  rfl
@[simp] theorem lineActivity_pmn : (lineActivity s).pmn = s.pmn := by
  rfl
@[simp] theorem lineActivity_flt : (lineActivity s).flt = s.flt := by
  rfl
@[simp] theorem lineActivity_lpt : (lineActivity s).lpt = s.lpt := by
  rfl
@[simp] theorem lineActivity_cfg : (lineActivity s).cfg = s.cfg := by
  rfl
@[simp] theorem lineActivity_rstLow : (lineActivity s).rstLow = s.rstLow := by
  rfl
@[simp] theorem lineActivity_freeCount : (lineActivity s).freeCount = s.freeCount := by
  rfl
@[simp] theorem lineActivity_pending : (lineActivity s).pending = s.pending := by
  rfl

@[simp] theorem takeChar_ctr (ch : RxChar) : (takeChar ch s).ctr = s.ctr := by
  unfold takeChar; simp only; split <;> simp
@[simp] theorem takeChar_stc (ch : RxChar) : (takeChar ch s).stc = s.stc := by
  unfold takeChar; simp only; split <;> simp
@[simp] theorem takeChar_txs (ch : RxChar) : (takeChar ch s).txs = s.txs := by
  unfold takeChar; simp only; split <;> simp
@[simp] theorem takeChar_pmn (ch : RxChar) : (takeChar ch s).pmn = s.pmn := by
  unfold takeChar; simp only; split <;> simp
@[simp] theorem takeChar_flt (ch : RxChar) : (takeChar ch s).flt = s.flt := by
  unfold takeChar; simp only; split <;> simp
@[simp] theorem takeChar_lpt (ch : RxChar) : (takeChar ch s).lpt = s.lpt := by
  unfold takeChar; simp only; split <;> simp
@[simp] theorem takeChar_cfg (ch : RxChar) : (takeChar ch s).cfg = s.cfg := by
  unfold takeChar; simp only; split <;> simp
@[simp] theorem takeChar_rstLow (ch : RxChar) : (takeChar ch s).rstLow = s.rstLow := by
  unfold takeChar; simp only; split <;> simp
@[simp] theorem takeChar_freeCount (ch : RxChar) : (takeChar ch s).freeCount = s.freeCount := by
  unfold takeChar; simp only; split <;> simp
@[simp] theorem takeChar_pending (ch : RxChar) : (takeChar ch s).pending = s.pending := by
  unfold takeChar; simp only; split <;> simp

/-! ### The bits of the local port -/

/-- Eight levels on the local port spell the byte they were made from. -/
theorem byteOfPortBits_portBits (b : Byte) : byteOfPortBits (portBits b) = b :=
  (by decide +kernel : ∀ n : Fin 256, byteOfPortBits (portBits (BitVec.ofFin n)) = BitVec.ofFin n) b.toFin

theorem portBits_length (b : Byte) : (portBits b).length = 8 := rfl

/-- Eight levels, then more: the first byte, then the bytes of the rest. -/
theorem clockedBytes_cons (b : Byte) (levels : List Bool) :
    clockedBytes (portBits b ++ levels) = b :: clockedBytes levels := by
  have hn : (portBits b ++ levels).length / 8 = levels.length / 8 + 1 := by
    rw [List.length_append, portBits_length]; omega
  have hd : ∀ i, (portBits b ++ levels).drop (8 * (i + 1)) = levels.drop (8 * i) := by
    intro i
    rw [List.drop_append, portBits_length, List.drop_eq_nil_of_le (by rw [portBits_length]; omega)]
    simp only [List.nil_append]; congr 1
  unfold clockedBytes
  rw [hn, List.range_succ_eq_map, List.map_cons, List.map_map]
  exact congrArg₂ List.cons (byteOfPortBits_portBits b)
    (List.map_congr_left fun i _ => by rw [Function.comp_apply, Nat.succ_eq_add_one, hd])

/-- The levels of whole bytes, and fewer than eight more, are cut into those bytes. -/
theorem clockedBytes_portBits (bs : List Byte) (rest : List Bool) (h : rest.length < 8) :
    clockedBytes (bs.flatMap portBits ++ rest) = bs := by
  induction bs with
  | nil => unfold clockedBytes; rw [List.flatMap_nil, List.nil_append, Nat.div_eq_of_lt h]; rfl
  | cons b bs ih => rw [List.flatMap_cons, List.append_assoc, clockedBytes_cons, ih]

end Sys2Proof.Machine
end

