-- ==== Sys2Proof/Laws/Transmit.lean ====
section
/-! SUPPORT. The Transmit Scheduler's records: where they stand, what each operation does to them, the candidate of a
selection, the pool blocks of a payload, and the levels of a frame on the line. -/

namespace Sys2Proof.Machine

/-! ### Records and queues -/

@[simp] theorem Message.returned_tag (m : Message) : m.returned.tag = m.tag := rfl
@[simp] theorem Message.returned_cls (m : Message) : m.returned.cls = m.cls := rfl
@[simp] theorem Message.returned_held (m : Message) : m.returned.held = m.held := rfl
@[simp] theorem Message.returned_returned (m : Message) : m.returned.returned = m.returned := rfl
@[simp] theorem Message.returned_blocks (m : Message) : m.returned.blocks = m.blocks := rfl
@[simp] theorem Message.returned_length (m : Message) : m.returned.length = m.length := rfl

theorem messages_mapQueues (t : Txs) (f : Message → Message) :
    messages { t with queues := t.queues.map fun q => q.map f } = (messages t).map f := by
  simp only [messages, Vector.toList_map, List.map_flatten]

theorem messages_filterQueues (t : Txs) (p : Message → Bool) :
    messages { t with queues := t.queues.map fun q => q.filter p } = (messages t).filter p := by
  simp only [messages, Vector.toList_map, List.filter_flatten]

/-- The records do not depend on the fields beside the queues. -/
theorem messages_congr {t u : Txs} (h : t.queues = u.queues) : messages t = messages u := by
  simp only [messages, h]

@[simp] theorem messages_returnContexts (t : Txs) : messages (returnContexts t) = (messages t).map Message.returned := by
  rw [← messages_mapQueues t Message.returned]; rfl

@[simp] theorem messages_updateMessage (tag : Tag) (f : Message → Message) (t : Txs) :
    messages (updateMessage tag f t) = (messages t).map fun m => if m.tag == tag then f m else m := by
  rw [← messages_mapQueues]; rfl

@[simp] theorem messages_depart (m : Message) (o : SendOutcome) (t : Txs) :
    messages (depart m o t) = (messages t).filter fun x => x.tag != m.tag := by
  rw [← messages_filterQueues]; rfl

theorem returnContexts_idem (t : Txs) : returnContexts (returnContexts t) = returnContexts t := by
  simp [returnContexts, Function.comp_def]

/-- Every record stands in the queue of some class. -/
theorem mem_messages {m : Message} {t : Txs} : m ∈ messages t ↔ ∃ k : Cls, m ∈ t.queues[k] := by
  simp only [messages, List.mem_flatten]
  constructor
  · rintro ⟨q, hq, hm⟩
    obtain ⟨i, hi, rfl⟩ := List.mem_iff_getElem.mp hq
    have hi' : i < 4 := by simpa using hi
    exact ⟨⟨i, hi'⟩, by simpa using hm⟩
  · rintro ⟨k, hk⟩
    exact ⟨t.queues[k], by simp, hk⟩

theorem findMessage_some {tag : Tag} {t : Txs} {m : Message} (h : findMessage tag t = some m) :
    m ∈ messages t ∧ m.tag = tag := by
  refine ⟨List.mem_of_find?_eq_some h, ?_⟩
  simpa using List.find?_some h

/-- No record of any class queue holds the tag. -/
theorem findMessage_none {tag : Tag} {t : Txs} :
    findMessage tag t = none ↔ ∀ j : Cls, ∀ m ∈ t.queues[j], m.tag ≠ tag := by
  simp only [findMessage, List.find?_eq_none, mem_messages, beq_iff_eq]
  constructor
  · intro h j m hm; exact h m ⟨j, hm⟩
  · rintro h m ⟨j, hm⟩; exact h j m hm

/-- The classes a floor admits, none of which holds a record: no candidate (R88). -/
theorem candidate_none {floor : Cls} {t : Txs} :
    candidate floor t = none ↔ ∀ k : Cls, k ≤ floor → t.queues[k] = [] := by
  simp [candidate, admitted, List.findSome?_eq_none_iff]

/-- The candidate is the head of its class queue, and no class of higher priority holds a record (R88). -/
theorem candidate_head {floor k : Cls} {t : Txs} {m : Message} (hk : k ≤ floor) (hm : t.queues[k].head? = some m)
    (hj : ∀ j : Cls, j < k → t.queues[j] = []) : candidate floor t = some m := by
  unfold candidate
  rw [List.findSome?_eq_some_iff]
  have hs : k ∈ admitted floor := by simp [admitted, hk]
  have hsorted : (admitted floor).Pairwise (· < ·) := (List.pairwise_lt_finRange 4).filter _
  obtain ⟨l₁, l₂, he⟩ := List.append_of_mem hs
  refine ⟨l₁, k, l₂, he, hm, ?_⟩
  intro j hjm
  rw [he, List.pairwise_append] at hsorted
  have : j < k := hsorted.2.2 j hjm k (by simp)
  simp only [List.head?_eq_none_iff]
  exact hj j this

/-! ### Cutting a payload into pool blocks (R69) -/

@[simp] theorem cutBlocks_length (n : Nat) (payload : List Byte) : (cutBlocks n payload).length = n := by
  induction n generalizing payload <;> simp [cutBlocks, *]

/-- Block `j` holds the 64 payload bytes from byte 64 j on. -/
theorem cutBlocks_get {n j : Nat} (payload : List Byte) (h : j < n) :
    (cutBlocks n payload)[j]? = some ((payload.drop (64 * j)).take 64) := by
  induction n generalizing payload j with
  | zero => omega
  | succ n ih =>
    cases j with
    | zero => simp [cutBlocks, Config.blockBytes]
    | succ j =>
      simp only [cutBlocks, List.getElem?_cons_succ]
      rw [ih _ (by omega)]
      simp only [Config.blockBytes, List.drop_drop]
      rw [show 64 + 64 * j = 64 * (j + 1) by omega]

/-- The two bytes of a two-byte field read back as the field (R181). -/
theorem halfOf_bytes (h : Half) : halfOf (highByte h) (lowByte h) = h := by
  unfold halfOf highByte lowByte
  ext i hi
  simp only [BitVec.getElem_append, BitVec.getElem_setWidth, BitVec.getLsbD_ushiftRight]
  split
  · simp [BitVec.getLsbD_eq_getElem hi]
  · rw [BitVec.getLsbD_eq_getElem (by omega)]; congr 1; omega

/-! ### The levels on the line (R2, R6) -/

@[simp] theorem characterBits_length (b : Byte) : (characterBits b).length = 10 := rfl

@[simp] theorem frameBits_nil : frameBits [] = [] := rfl

@[simp] theorem frameBits_cons (b : Byte) (bytes : List Byte) :
    frameBits (b :: bytes) = characterBits b ++ frameBits bytes := rfl

@[simp] theorem frameBits_length (bytes : List Byte) : (frameBits bytes).length = 10 * bytes.length := by
  induction bytes with
  | nil => rfl
  | cons b bytes ih => simp only [frameBits_cons, List.length_append, characterBits_length, ih, List.length_cons]; omega

/-- Bit time `n` of character `j` shows that character's bit. -/
theorem frameBits_get {bytes : List Byte} {j : Nat} {b : Byte} (h : bytes[j]? = some b) {n : Nat} (hn : n < 10) :
    (frameBits bytes)[10 * j + n]? = (characterBits b)[n]? := by
  induction bytes generalizing j with
  | nil => simp at h
  | cons x bytes ih =>
    cases j with
    | zero =>
      simp only [List.getElem?_cons_zero, Option.some.injEq] at h
      subst h
      rw [frameBits_cons, List.getElem?_append_left (by simpa using hn)]
      simp
    | succ j =>
      rw [frameBits_cons, List.getElem?_append_right (by simp; omega), characterBits_length,
        show 10 * (j + 1) + n - 10 = 10 * j + n by omega]
      exact ih (by simpa using h)

/-- With the driver OFF, LTX is at 1. -/
theorem ltx_off {s : State} (h : s.lif.tx = none) (n : Nat) : ltx s n = true := by
  simp only [ltx, h]

/-- With the driver ON, LTX shows the levels of the frame, and 1 after them. -/
theorem ltx_on {s : State} {x : Transmission} (h : s.lif.tx = some x) (n : Nat) :
    ltx s n = (frameBits x.bytes).getD n true := by
  simp only [ltx, h]

end Sys2Proof.Machine
end

