-- ==== Sys2Proof/Laws/Faults.lean ====
section
/-! SUPPORT. What one fault occurrence and a STOPPING report can do, how each operation on a pool moves its blocks, and
when the first check of a frame fails. -/

namespace Sys2Proof.Machine

variable (s : State)

/-! ### Sets -/

theorem FaultKind.bit_lt (k : FaultKind) : k.bit < 10 := by cases k <;> decide

theorem FaultKind.bit_inj {j k : FaultKind} (h : j.bit = k.bit) : j = k := by
  cases j <;> cases k <;> first | rfl | (simp [FaultKind.bit] at h)

/-- Adding a kind sets its own bit and no other. -/
theorem hasKind_addKind (set : KindSet) (j k : FaultKind) :
    hasKind (addKind set k) j = (hasKind set j || decide (j = k)) := by
  have hj := j.bit_lt
  simp only [hasKind, addKind, BitVec.getLsbD_or, BitVec.getLsbD_shiftLeft, hj, decide_true, Bool.true_and]
  congr 1
  by_cases h : j = k
  · subst h; simp
  · have hne : j.bit ≠ k.bit := fun e => h (FaultKind.bit_inj e)
    simp only [h, decide_false, Bool.and_eq_false_iff, Bool.not_eq_false', decide_eq_true_eq]
    rcases Nat.lt_or_ge j.bit k.bit with hlt | hge
    · exact Or.inl hlt
    · right
      obtain ⟨d, hd⟩ : ∃ d, j.bit - k.bit = d + 1 := ⟨j.bit - k.bit - 1, by omega⟩
      rw [hd]; simp

/-- Removing a set of kinds clears those bits and no other. -/
theorem hasKind_removeKinds (set gone : KindSet) (k : FaultKind) :
    hasKind (removeKinds set gone) k = (hasKind set k && !hasKind gone k) := by
  simp [hasKind, removeKinds, k.bit_lt]

/-! ### One occurrence (R149, R151) -/

/-- The Fault Unit after an occurrence. -/
theorem raise_flt (o : Occurrence) : (raise o s).flt = recorded s.cfg.masks o s.flt := by
  unfold raise recorded recordFault
  split
  · rfl
  · split <;> cases h : s.flt.first <;> simp [State.withFlt]

/-- An occurrence that is masked or NOTED reaches the Fault Unit alone. -/
theorem raise_calm {s : State} {o : Occurrence} (h : ¬ Stops o.kind s) :
    raise o s = s.withFlt (recorded s.cfg.masks o s.flt) := by
  unfold raise recorded recordFault
  split
  · rfl
  · split
    · next h1 h2 => exact absurd ⟨by simpa using h1, h2⟩ h
    · cases s.flt.first <;> rfl

/-- An occurrence that is unmasked and STOPPING is recorded, and then reported. -/
theorem raise_stops {s : State} {o : Occurrence} (h : Stops o.kind s) :
    raise o s = stoppingReport (s.withFlt (recorded s.cfg.masks o s.flt)) := by
  obtain ⟨h1, h2⟩ := h
  simp only [raise, recorded, h1, h2, recordFault, if_true, Bool.false_eq_true, if_false]
  cases s.flt.first <;> rfl

/-- A STOPPING report with the driver OFF: LISTEN, COLD and ACTIVE go to SILENT, CONFIG and SILENT stay (R58). -/
theorem stoppingReport_off {s : State} (h : s.lif.tx = none) :
    stoppingReport s = if stoppable s.stc.station then enterSilent s else s := by
  simp [stoppingReport, h]

/-- A STOPPING report with the driver ON leaves everything but the change of state that waits for the cut (R59). -/
theorem stoppingReport_on {s : State} (h : s.lif.tx ≠ none) :
    stoppingReport s =
      if stoppable s.stc.station then s.withStc { s.stc with pendingExit := some (s.stc.pendingExit.getD .toSilent) }
      else s := by
  have : s.lif.tx.isSome = true := by
    cases hx : s.lif.tx with
    | none => exact absurd hx h
    | some _ => rfl
  simp [stoppingReport, this]

/-- Everything an occurrence can do to the Transmit Scheduler. -/
theorem raise_txs (o : Occurrence) : (raise o s).txs = s.txs ∨ (raise o s).txs = returnContexts s.txs := by
  by_cases h : Stops o.kind s
  · rw [raise_stops h]
    unfold stoppingReport
    split
    · split
      · exact Or.inl rfl
      · exact Or.inr rfl
    · exact Or.inl rfl
  · rw [raise_calm h]; exact Or.inl rfl

/-- Everything an occurrence can do to the Cycle Tracker. -/
theorem raise_ctr (o : Occurrence) :
    (raise o s).ctr = s.ctr ∨
      (raise o s).ctr = { s.ctr with hold := false, coldWait := none, coldAlignPending := false } := by
  by_cases h : Stops o.kind s
  · rw [raise_stops h]
    unfold stoppingReport
    split
    · split
      · exact Or.inl rfl
      · exact Or.inr rfl
    · exact Or.inl rfl
  · rw [raise_calm h]; exact Or.inl rfl

/-- Everything an occurrence can do to the Station Controller. -/
theorem raise_stc (o : Occurrence) :
    (raise o s).stc = s.stc ∨
      (Stops o.kind s ∧ stoppable s.stc.station = true ∧ s.lif.tx ≠ none ∧
        (raise o s).stc = { s.stc with pendingExit := some (s.stc.pendingExit.getD .toSilent) }) ∨
      (Stops o.kind s ∧ stoppable s.stc.station = true ∧ s.lif.tx = none ∧
        (raise o s).stc = (enterSilent s).stc) := by
  by_cases h : Stops o.kind s
  · rw [raise_stops h]
    by_cases hs : stoppable s.stc.station = true
    · by_cases ht : s.lif.tx = none
      · refine Or.inr (Or.inr ⟨h, hs, ht, ?_⟩)
        rw [stoppingReport_off (by exact ht)]
        simp only [State.withFlt, hs, if_true]
        rfl
      · refine Or.inr (Or.inl ⟨h, hs, ht, ?_⟩)
        rw [stoppingReport_on (by exact ht)]
        simp only [State.withFlt, hs, if_true]
        rfl
    · left
      unfold stoppingReport
      rw [if_neg (by simpa [State.withFlt] using hs)]
      rfl
  · rw [raise_calm h]; exact Or.inl rfl

/-! ### Pools (R71, R108) -/

/-- A discard returns to the free blocks what its entries held. -/
theorem discardEntries_blocks (which : Entry → Bool) (x : Rxu) :
    (discardEntries which x).free + entryBlocks (discardEntries which x).table = x.free + entryBlocks x.table := by
  simp only [discardEntries, entryBlocks]
  induction x.table with
  | nil => rfl
  | cons e es ih => by_cases h : which e <;> simp [h] at ih ⊢ <;> omega

/-- A departure returns to the free blocks what the message held. -/
theorem depart_blocks (m : Message) (o : SendOutcome) (t : Txs) :
    (depart m o t).free + ((messages (depart m o t)).map Message.held).sum = t.free + ((messages t).map Message.held).sum := by
  rw [messages_depart]
  simp only [depart]
  induction messages t with
  | nil => rfl
  | cons x xs ih => by_cases h : x.tag = m.tag <;> simp [h] at ih ⊢ <;> omega

/-- An update that keeps what a record holds keeps the pool. -/
theorem updateMessage_blocks (tag : Tag) (f : Message → Message) (t : Txs) (h : ∀ m, (f m).held = m.held) :
    (messages (updateMessage tag f t)).map Message.held = (messages t).map Message.held := by
  rw [messages_updateMessage, List.map_map]
  apply List.map_congr_left
  intro m _
  simp only [Function.comp]
  split
  · exact h m
  · rfl

/-- Returned contexts keep the pool. -/
theorem returnContexts_blocks (t : Txs) :
    (messages (returnContexts t)).map Message.held = (messages t).map Message.held := by
  rw [messages_returnContexts, List.map_map]
  rfl

/-! ### The first check of a frame (R19, R20) -/

/-- A framing error in any character of the frame, one past the counted 300 included. -/
theorem framingError_iff (f : Gather) :
    framingError f = true ↔ f.lateBad = true ∨ ∃ ch ∈ f.chars, ch.good = false := by
  simp [framingError]

/-- The outcome is FRAMING exactly on a framing error. -/
theorem checkFrame_framing (table : List PhaseEntry) (digest : Byte) (f : Gather) :
    checkFrame table digest f = .framing ↔ framingError f = true := by
  unfold checkFrame
  simp only
  split_ifs <;> simp_all

end Sys2Proof.Machine
end

