-- ==== Sys2Proof/Laws/Port.lean ====
section
/-! SUPPORT. What every transaction of the local port does at the port, so that a statement about one command needs only what
its owning block decides. -/

namespace Sys2Proof.Machine

variable (c : Command) (args payload : List Byte) (s : State)

/-! ### The bytes of a transaction -/

@[simp] theorem receiveAll_lif : (receiveAll c args payload s).lif = s.lif := rfl
@[simp] theorem receiveAll_fru : (receiveAll c args payload s).fru = s.fru := rfl
@[simp] theorem receiveAll_ctr : (receiveAll c args payload s).ctr = s.ctr := rfl
@[simp] theorem receiveAll_stc : (receiveAll c args payload s).stc = s.stc := rfl
@[simp] theorem receiveAll_rxu : (receiveAll c args payload s).rxu = s.rxu := rfl
@[simp] theorem receiveAll_pmn : (receiveAll c args payload s).pmn = s.pmn := rfl
@[simp] theorem receiveAll_flt : (receiveAll c args payload s).flt = s.flt := rfl
@[simp] theorem receiveAll_cfg : (receiveAll c args payload s).cfg = s.cfg := rfl
@[simp] theorem receiveAll_rstLow : (receiveAll c args payload s).rstLow = s.rstLow := rfl
@[simp] theorem receiveAll_freeCount : (receiveAll c args payload s).freeCount = s.freeCount := rfl
@[simp] theorem receiveAll_pending : (receiveAll c args payload s).pending = s.pending := rfl
@[simp] theorem receiveAll_args : (receiveAll c args payload s).lpt.args = args := rfl
@[simp] theorem receiveAll_staging :
    (receiveAll c args payload s).txs.staging = payload.take Config.stagingBytes := rfl

/-- Receiving the bytes changes the Transmit Scheduler in its staging area alone. -/
theorem receiveAll_txs : (receiveAll c args payload s).txs = { s.txs with staging := payload.take Config.stagingBytes } := rfl

@[simp] theorem messages_receiveAll : messages (receiveAll c args payload s).txs = messages s.txs := rfl
@[simp] theorem findMessage_receiveAll (tag : Tag) :
    findMessage tag (receiveAll c args payload s).txs = findMessage tag s.txs := rfl
@[simp] theorem completionsFull_receiveAll : completionsFull (receiveAll c args payload s).txs = completionsFull s.txs := rfl
@[simp] theorem onLine_receiveAll (tag : Tag) : onLine tag (receiveAll c args payload s).txs = onLine tag s.txs := rfl

/-! ### The taking -/

variable {c args payload s}

/-- Every transaction row is its transaction at the port. -/
theorem exec_transaction {i : Instr} (s : State) (h : transactionOf i = some (c, args, payload)) :
    exec i s = .next (transact c args payload s) := by
  cases i <;> simp only [transactionOf, Option.some.injEq, Prod.mk.injEq, reduceCtorEq] at h <;>
    obtain ⟨rfl, rfl, rfl⟩ := h <;> rfl

/-- An awaited transaction is taken. -/
theorem exec_awaited {i : Instr} (h : transactionOf i = some (c, args, payload)) (hw : Awaited i s) :
    exec i s = .next (takeCommand c (receiveAll c args payload s)) := by
  rw [exec_transaction s h]
  simp only [Awaited, h] at hw
  simp [transact, hw]

/-- With no soft reset waiting, an awaited transaction is answered as its owning block decides. -/
theorem exec_takeable {i : Instr} (h : transactionOf i = some (c, args, payload)) (hw : Takeable i s) :
    exec i s = .next (answer (decideCommand c (receiveAll c args payload s))) := by
  rw [exec_awaited h hw.1]
  have : resetWaits (receiveAll c args payload s) = false := by simp [resetWaits, hw.2]
  simp [takeCommand, this]

/-- A refusal of the owning block leaves everything but the answer as it stands. -/
theorem onlyAnswered_refuse (r : Result) (c : Command) (args payload : List Byte) (s : State) :
    OnlyAnswered r [] s (answer (refuse r (receiveAll c args payload s))) := by
  refine ⟨⟨rfl, rfl, rfl⟩, rfl, ⟨rfl, rfl, rfl⟩, ?_, rfl⟩
  intro x hx; cases x <;> first | rfl | simp at hx

/-- Every decision is OK or a refusal without effect (R170). -/
theorem decideCommand_ok_or_refuse (c : Command) (s : State) :
    (decideCommand c s).result = .ok ∨ ∃ r, decideCommand c s = refuse r s := by
  cases c <;>
    simp only [decideCommand, decideSetup, decideTable, decideJoin, decideLeave, decideRejoin, decideRestart, decideEnable,
      decideTest, decideSubmit, decideWithdraw, decideCompletions, decideFetch, decideStatus, decidePeers, decideFaults,
      decideFaultClear, decideCounter, decideSnapshot] <;>
    (repeat' split) <;> first | exact Or.inl rfl | exact Or.inr ⟨_, rfl⟩

/-- What the port has counted depends on the port's own registers alone. -/
theorem portInv_of_lpt {s t : State} (h : t.lpt.state = s.lpt.state) (hc : t.lpt.command = s.lpt.command)
    (hn : t.lpt.byteCount = s.lpt.byteCount) (ha : t.lpt.args = s.lpt.args) (hs : PortInv s) : PortInv t :=
  ⟨fun e => ha.trans (hs.command (h.symm.trans e)),
    fun e ec => by rw [hn, ha]; exact hs.counted (h.symm.trans e) (hc ▸ ec)⟩

/-- Out of COMMAND and ARGUMENTS nothing is counted. -/
theorem portInv_of_outside {s : State} (h : s.lpt.state ≠ .command) (h' : s.lpt.state ≠ .arguments) : PortInv s :=
  ⟨fun e => absurd e h, fun e => absurd e h'⟩

/-- A port that has answered has nothing left to count. -/
theorem portInv_answer (a : Answer) : PortInv (answer a) :=
  portInv_of_outside (fun e => nomatch e) (fun e => nomatch e)

/-! ### The request lines -/

/-- DLV_REQ as R178 says it. -/
theorem dlvNext_eq (s : State) :
    dlvNext s =
      dlvLevel s.cfg.dlvMode s.lpt.dlvReq s.cfg.trigger s.rxu.delivery.length s.rxu.quietFlag := by
  unfold dlvNext dlvCondition dlvLevel deliveryCause
  cases s.cfg.dlvMode <;> cases s.rxu.delivery <;> simp

/-- SUB_REQ as R179 says it. -/
theorem subNext_eq (s : State) : subNext s = subLevel s.cfg.subMode s.lpt.subReq s.txs.free := by
  unfold subNext subCondition subLevel
  cases s.cfg.subMode <;> simp

/-- The lines after a SETUP, as R172 says them. -/
theorem dlvCondition_eq (s : State) :
    dlvCondition s = dlvLevel s.cfg.dlvMode false s.cfg.trigger s.rxu.delivery.length s.rxu.quietFlag := by
  unfold dlvCondition dlvLevel deliveryCause
  cases s.cfg.dlvMode <;> cases s.rxu.delivery <;> simp

theorem subCondition_eq (s : State) : subCondition s = subLevel s.cfg.subMode false s.txs.free := by
  unfold subCondition subLevel
  cases s.cfg.subMode <;> simp

end Sys2Proof.Machine
end

