-- ==== Sys2Proof/Laws/Receive.lean ====
section
/-! SUPPORT. Everything a taken frame can do at the Receive Unit and at the Fault Unit, and what keeps the reassembly table in
its order. -/

namespace Sys2Proof.Machine

/-! ### Occurrences in their order -/

/-- Occurrences in their order reach the Fault Unit as `recordedAll` says. -/
theorem raiseAll_flt (os : List Occurrence) (s : State) : (raiseAll os s).flt = recordedAll s.cfg.masks os s.flt := by
  unfold raiseAll recordedAll
  induction os generalizing s with
  | nil => rfl
  | cons o os ih => simp only [List.foldl_cons]; rw [ih, raise_flt, raise_cfg]

/-! ### The table -/

theorem insertEntry_perm (e : Entry) (l : List Entry) : (insertEntry e l).Perm (e :: l) := by
  induction l with
  | nil => exact .refl _
  | cons x xs ih =>
    unfold insertEntry
    split
    · exact .refl _
    · exact (ih.cons x).trans (.swap e x xs)

/-- An entry of a new key keeps the table in ascending order. -/
theorem insertEntry_sorted (e : Entry) (l : List Entry) (h : (l.map Entry.rank).Pairwise (· < ·))
    (fresh : ∀ x ∈ l, x.rank ≠ e.rank) : ((insertEntry e l).map Entry.rank).Pairwise (· < ·) := by
  induction l with
  | nil => simp [insertEntry]
  | cons x xs ih =>
    have hx := List.pairwise_cons.mp h
    have hne := fresh x (by simp)
    unfold insertEntry
    split
    · next hle =>
      refine List.pairwise_cons.mpr ⟨?_, h⟩
      intro r hr
      have hlt : e.rank < x.rank := by omega
      rcases List.mem_cons.mp hr with rfl | hr
      · exact hlt
      · exact hlt.trans (hx.1 r hr)
    · next hgt =>
      refine List.pairwise_cons.mpr ⟨?_, ih hx.2 fun y hy => fresh y (by simp [hy])⟩
      intro r hr
      have hr' := ((insertEntry_perm e xs).map Entry.rank).mem_iff.mp hr
      rcases List.mem_cons.mp hr' with rfl | hr'
      · omega
      · exact hx.1 r hr'

theorem hasKey_iff (f : Gather) (e : Entry) : e.hasKey (senderOf f.bytes) (classOf f.bytes) = true ↔ KeyOf f e := by
  simp [Entry.hasKey, KeyOf]

/-- The discard of a frame's key, in the words of the statements. -/
theorem discardEntry_eq (f : Gather) (x : Rxu) :
    discardEntry (senderOf f.bytes) (classOf f.bytes) x = withoutKey f x := by
  have h : (fun e => e.hasKey (senderOf f.bytes) (classOf f.bytes)) = fun e => decide (KeyOf f e) :=
    funext fun e => by rw [Bool.eq_iff_iff, hasKey_iff]; simp
  unfold discardEntry discardEntries withoutKey
  rw [show Entry.hasKey (senderOf f.bytes) (classOf f.bytes) = fun e => decide (KeyOf f e) from h]
  simp

theorem removeEntry_table (f : Gather) (x : Rxu) :
    (removeEntry (senderOf f.bytes) (classOf f.bytes) x).table = (withoutKey f x).table := by
  rw [← discardEntry_eq]; rfl

theorem findEntry_none {f : Gather} {x : Rxu} (h : findEntry (senderOf f.bytes) (classOf f.bytes) x = none) :
    ∀ e ∈ x.table, ¬ KeyOf f e := by
  intro e he hk
  exact absurd ((hasKey_iff f e).mpr hk) (List.find?_eq_none.mp h e he)

theorem findEntry_some {f : Gather} {x : Rxu} {e : Entry}
    (h : findEntry (senderOf f.bytes) (classOf f.bytes) x = some e) : e ∈ x.table ∧ KeyOf f e :=
  ⟨List.mem_of_find?_eq_some h, (hasKey_iff f e).mp (List.find?_some (p := Entry.hasKey _ _) h)⟩

theorem withoutKey_fresh (f : Gather) (x : Rxu) : ∀ e ∈ (withoutKey f x).table, ¬ KeyOf f e := by
  intro e he
  exact of_decide_eq_true (List.mem_filter.mp he).2

/-! ### Entries that leave at a boundary -/

theorem discardEntries_eq (gone : Entry → Prop) [DecidablePred gone] (x : Rxu) :
    discardEntries (fun e => decide (gone e)) x = withoutEntries gone x := by
  simp [discardEntries, withoutEntries]

/-- The entries that leave together are recorded in the table's order. -/
theorem ageOut_flt (which : Entry → Bool) (p : Phase) (c : Cycle) (s : State) :
    (ageOut which p c s).flt = recordedAll s.cfg.masks ((s.rxu.table.filter which).map (agedOccurrence p c)) s.flt :=
  raiseAll_flt _ _

/-- The quiet counter and flag over a boundary, in the words of the statements. -/
theorem quietBoundary_eq (limit : Nat) (x : Rxu) :
    quietBoundary limit x = { x with quiet := (quietAfter limit x).1, quietFlag := (quietAfter limit x).2 } := by
  obtain ⟨segBuf, free, table, delivery, quiet, quietFlag⟩ := x
  unfold quietBoundary quietAfter
  by_cases hq : quiet < limit <;> cases delivery <;> simp [hq, BEq.beq]

/-! ### One taken frame -/

theorem deliveryRoom_iff (x : Rxu) : deliveryRoom x = true ↔ RoomToDeliver x := by
  simp only [deliveryRoom, RoomToDeliver, Config.deliveryPlaces, Bool.and_eq_true, decide_eq_true_eq]
  exact and_congr Iff.rfl decide_eq_true_iff

/-- A segment 0 with no entry of its key. -/
theorem takeStart_handled (f : Gather) (s0 : State) (p : Phase) (c : Cycle) (s : State) (index : indexOf f.bytes = 0)
    (fresh : ∀ e ∈ s.rxu.table, ¬ KeyOf f e) :
    let g := takenFrame f s0 p c
    let t := if g.last then takeSingle g s else takeFirst g s
    ∃ kinds, Handled f g.payload s.rxu t.rxu kinds ∧
      t.flt = recordedAll s.cfg.masks (kinds.map (frameFault f p c)) s.flt := by
  intro g t
  cases hl : lastOf f.bytes
  · have ht : t = takeFirst g s := if_neg (by simp [g, takenFrame, hl])
    by_cases hr : s.rxu.table.length < Config.reassemblyPlaces ∧ 0 < s.rxu.free
    · refine ⟨[], ?_, ?_⟩
      · rw [ht, takeFirst, if_pos hr]
        exact .first _ _ index hl fresh hr.1 hr.2 (insertEntry_perm _ _)
      · rw [ht, takeFirst, if_pos hr]; rfl
    · refine ⟨[.noSpace], ?_, ?_⟩
      · rw [ht, takeFirst, if_neg hr, raise_rxu]
        exact .firstNoSpace _ index hl fresh hr
      · rw [ht, takeFirst, if_neg hr, raise_flt]; rfl
  · have ht : t = takeSingle g s := if_pos (by simp [g, takenFrame, hl])
    by_cases hr : deliveryRoom s.rxu = true
    · refine ⟨[], ?_, ?_⟩
      · rw [ht, takeSingle, if_pos hr]
        exact .whole _ index hl fresh ((deliveryRoom_iff _).mp hr)
      · rw [ht, takeSingle, if_pos hr]; rfl
    · refine ⟨[.noSpace], ?_, ?_⟩
      · rw [ht, takeSingle, if_neg hr, raise_rxu]
        exact .wholeNoSpace _ index hl fresh fun h => hr ((deliveryRoom_iff _).mpr h)
      · rw [ht, takeSingle, if_neg hr, raise_flt]; rfl

/-- Everything a taken frame can do at the Receive Unit and the Fault Unit (R107 to R115, R120). -/
theorem takeFrame_handled (f : Gather) (s0 : State) (p : Phase) (c : Cycle) (s : State) :
    let g := takenFrame f s0 p c
    ∃ kinds, Handled f g.payload s.rxu (takeFrame g s).rxu kinds ∧
      (takeFrame g s).flt = recordedAll s.cfg.masks (kinds.map (frameFault f p c)) s.flt := by
  intro g
  have hkey : findEntry g.sender g.cls s.rxu = findEntry (senderOf f.bytes) (classOf f.bytes) s.rxu := rfl
  have hdis : discardEntry g.sender g.cls s.rxu = withoutKey f s.rxu := discardEntry_eq f s.rxu
  by_cases hi : indexOf f.bytes = 0
  · have ht : takeFrame g s = if g.last then takeSingle g (replaceEntry g s) else takeFirst g (replaceEntry g s) :=
      if_pos (show g.index = 0 from hi)
    rw [ht]
    cases he : findEntry (senderOf f.bytes) (classOf f.bytes) s.rxu with
    | none =>
      have hs : replaceEntry g s = s := by unfold replaceEntry; rw [hkey, he]
      rw [hs]
      exact takeStart_handled f s0 p c s hi (findEntry_none he)
    | some e =>
      have hs : replaceEntry g s = raise (frameOccurrence .sequence g) (s.withRxu (withoutKey f s.rxu)) := by
        unfold replaceEntry; rw [hkey, he, hdis]
      obtain ⟨kinds, h1, h2⟩ := takeStart_handled f s0 p c (replaceEntry g s) hi
        (by rw [hs, raise_rxu]; exact withoutKey_fresh f s.rxu)
      refine ⟨.sequence :: kinds, ?_, ?_⟩
      · rw [hs, raise_rxu] at h1
        rw [hs]
        exact .replaces _ _ _ e hi (findEntry_some he).1 (findEntry_some he).2 h1
      · rw [h2, hs, raise_flt, raise_cfg]; rfl
  · have ht : takeFrame g s = takeContinuation g s := if_neg (show ¬ g.index = 0 from hi)
    have hi' : 1 ≤ indexOf f.bytes := Nat.pos_of_ne_zero hi
    rw [ht]
    cases he : findEntry (senderOf f.bytes) (classOf f.bytes) s.rxu with
    | none =>
      have hs : takeContinuation g s = s := by unfold takeContinuation; rw [hkey, he]
      rw [hs]
      exact ⟨[], .orphan _ hi' (findEntry_none he), rfl⟩
    | some e =>
      obtain ⟨hm, hk⟩ := findEntry_some he
      have hs : takeContinuation g s =
          if e.next = g.index ∧ e.number = g.number then if g.last then takeLast g e s else takeMiddle g e s
          else raise (frameOccurrence .sequence g) (s.withRxu (discardEntry g.sender g.cls s.rxu)) := by
        unfold takeContinuation; rw [hkey, he]
      rw [hs]
      by_cases ha : e.next = g.index ∧ e.number = g.number
      · rw [if_pos ha]
        cases hl : lastOf f.bytes
        · rw [if_neg (by simp [g, takenFrame, hl])]
          by_cases hr : 0 < s.rxu.free
          · refine ⟨[], ?_, ?_⟩
            · rw [takeMiddle, if_pos hr]
              refine .continues _ e _ hi' hm hk ha.1 ha.2 hl hr ?_
              rw [← removeEntry_table]
              exact insertEntry_perm _ _
            · rw [takeMiddle, if_pos hr]; rfl
          · refine ⟨[.noSpace], ?_, ?_⟩
            · rw [takeMiddle, if_neg hr, raise_rxu, hdis]
              exact .continuesNoSpace _ e hi' hm hk ha.1 ha.2 (by simp [hl]; omega)
            · rw [takeMiddle, if_neg hr, raise_flt]; rfl
        · rw [if_pos (by simp [g, takenFrame, hl])]
          by_cases hr : deliveryRoom s.rxu = true
          · refine ⟨[], ?_, ?_⟩
            · rw [takeLast, if_pos hr]
              have := Handled.completes (payload := g.payload) s.rxu e hi' hm hk ha.1 ha.2 hl ((deliveryRoom_iff _).mp hr)
              rw [← removeEntry_table] at this
              exact this
            · rw [takeLast, if_pos hr]; rfl
          · refine ⟨[.noSpace], ?_, ?_⟩
            · rw [takeLast, if_neg hr, raise_rxu, hdis]
              refine .continuesNoSpace _ e hi' hm hk ha.1 ha.2 ?_
              rw [if_pos hl]
              exact fun h => hr ((deliveryRoom_iff _).mpr h)
            · rw [takeLast, if_neg hr, raise_flt]; rfl
      · rw [if_neg ha, raise_rxu, raise_flt, hdis]
        refine ⟨[.sequence], .contradicts _ e hi' hm hk ?_, rfl⟩
        by_cases h1 : e.next = indexOf f.bytes
        · exact Or.inr fun h2 => ha ⟨h1, h2⟩
        · exact Or.inl h1

end Sys2Proof.Machine
end

