-- ==== Sys2Proof/Tests/Slice0.lean ====
section
/-! SUPPORT. Tests on small states: ill-formed commands are refused, the worked values of the manual come out, each command
does one thing, and every statement with hypotheses has a state that meets them. -/

namespace Sys2Proof.Tests

open Sys2Proof Sys2Proof.Machine

set_option maxRecDepth 100000
set_option Elab.async false

/-! ### Helpers -/

/-- The state after a command; the same state where it does not go on. -/
def after (i : Instr) (s : State) : State :=
  match exec i s with
  | .next t => t
  | _ => s

/-- The result code and reply that stand in the port. -/
def reply (s : State) : List Byte := s.lpt.reply

/-- A state whose port has seen the fall of SEL_N. -/
def port (s : State) : State := { s with lpt := { s.lpt with state := .command, sdo := some 0 } }

/-- A state whose port stands in a given transaction state. -/
def portIn (p : PortState) (s : State) : State := { s with lpt := { s.lpt with state := p } }

/-- Phases 0, 1 and 2, owned by stations 0, 1 and 2, admitting every class. -/
def rows : List PhaseEntry := [⟨0, 3⟩, ⟨1, 3⟩, ⟨2, 3⟩]

/-- The reset state with the table of three phases. -/
def tabled : State :=
  { State.reset with ctr := { State.reset.ctr with table := rows, digest := tableDigest rows },
                     pmn := derivePeers rows 0 }

/-- A station in a given state with the driver OFF and the receiver in IDLE, UNALIGNED. -/
def inState (x : Station) (own : Addr) : State :=
  { tabled with stc := { State.reset.stc with station := x }, lif := { State.reset.lif with receiver := .idle },
                cfg := { Items.default with ownAddress := own }, pmn := derivePeers rows own }

/-- The station `own` in ACTIVE, in phase `p` of cycle 9, with the skip timer running. -/
def active (own : Addr) (p : Phase) : State :=
  let s := inState .active own
  { s with ctr := { s.ctr with aligned := true, p := p, c := 9, skip := .running 2 } }

/-- The station 0 in LISTEN with its cold-start wait running. -/
def listening : State :=
  let s := inState .listen 0
  { s with ctr := { s.ctr with coldWait := some 48 } }

/-- A frame of another station whose characters all had good stop bits. -/
def heard (bytes : List Byte) : Gather := ⟨bytes.map fun b => ⟨b, true⟩, false, true, true, false⟩

/-- The same state with this frame complete on the line. -/
def onLineNow (f : Gather) (s : State) : State := { s with fru := { s.fru with frame := some f } }

/-- The FILL frame of station 1 in phase 1 of cycle 9. -/
def fill1 : List Byte := shortFrame .fill 1 1 9 (tableDigest rows) ⟨false, false⟩

/-- A DATA frame of station 1 in phase 1 of cycle 9. -/
def data1 (number : MsgNo) (index : Nat) (last : Bool) (payload : List Byte) : List Byte :=
  dataFrame 1 1 9 (tableDigest rows) ⟨0, 1, number, index, last, payload⟩ ⟨false, false⟩

/-- A full payload. -/
def full : List Byte := List.replicate 64 5

/-- A queued message of 10 bytes. -/
def letter (tag : Tag) (cls : Cls) : Message := ⟨tag, cls, 1, 10, [[1, 2, 3, 4, 5, 6, 7, 8, 9, 10]], .queued⟩

/-- A state with one message in the queue of class 1. -/
def withLetter (m : Message) (s : State) : State :=
  { s with txs := { s.txs with queues := #v[[], [m], [], []], free := 63 } }

/-- A state whose driver is ON. -/
def driving (bytes : List Byte) (matched : Nat) (mismatch : Bool) (s : State) : State :=
  { s with lif := { s.lif with tx := some ⟨bytes, matched, mismatch⟩ } }

/-- An entry of station 1 and class 1. -/
def entry (number : MsgNo) (next age : Nat) : Entry := ⟨1, 1, number, false, next, List.replicate next full, age⟩

/-- A state with these reassembly entries. -/
def withEntries (es : List Entry) (s : State) : State :=
  { s with rxu := { s.rxu with table := es, free := 64 - entryBlocks es } }

/-- A delivery record of one byte. -/
def parcel : Delivery := ⟨1, 1, false, 1, [[7]], 9⟩

/-- A state with this many delivery records. -/
def withParcels (n : Nat) (s : State) : State :=
  { s with rxu := { s.rxu with delivery := List.replicate n parcel, free := 64 - n } }

/-- The SETUP arguments that carry the defaults of 09. -/
def defaultArgs : List Byte :=
  [0, 0, 1, 0, 0, 0, 0, 1, 1, 2, 2, 3, 3, 0, 0, 0, 0, 3, 0, 16, 4, 1, 2, 0, 0, 0, 0, 0]

/-! ### Well-formedness -/

theorem test_illFormed_setup_27_bytes : (Instr.setup (List.replicate 27 0)).wellFormed = false := by decide
theorem test_illFormed_table_short : (Instr.table 2 [0]).wellFormed = false := by decide
theorem test_illFormed_submit_long : (Instr.submit 1 0 2 1 [5, 6]).wellFormed = false := by decide
theorem test_illFormed_unknown_known : (Instr.unknownCommand 0x40).wellFormed = false := by decide
theorem test_wellFormed_setup : (Instr.setup defaultArgs).wellFormed = true := by decide
theorem test_wellFormed_submit : (Instr.submit 1 0 2 2 [5, 6]).wellFormed = true := by decide
theorem test_wellFormed_unknown : (Instr.unknownCommand 0x12).wellFormed = true := by decide

/-! ### Values the manual works out -/

/-- R16: the CRC-16 of one byte 00h. -/
theorem test_crc_of_zero : crc16 [0] = 0x0F87 := by decide +kernel

/-- R25: the digest of a table of one entry, owner 0 and floor 0. -/
theorem test_digest_of_one_entry : tableDigest [⟨0, 0⟩] = 0x15 := by decide +kernel

/-- R17: the pattern of sender 0 in cycle 0. -/
theorem test_pattern_starts : (patternBytes 0 0).take 2 = [0x01, 0xC0] := by decide +kernel

/-- 10, Line frames: the header of a FILL frame of station 2 in phase 3 of cycle 17. -/
theorem test_fill_header : (shortFrame .fill 2 3 17 0x5A ⟨false, false⟩).take 5 = [0xC3, 0x42, 0x03, 0x11, 0x5A] := by
  decide +kernel

/-- 10, TABLE: the entry bytes of the worked table. -/
theorem test_entry_bytes :
    [0x0B, 0x17, 0x27, 0x08, 0x15, 0x27].map (fun b => entryByte (entryOf b)) = [0x0B, 0x17, 0x27, 0x08, 0x15, 0x27] := by
  decide

/-- 09: SETUP with the arguments of the defaults gives the defaults. -/
theorem test_setup_defaults : setupItems defaultArgs = Items.default := by decide +kernel

/-- R2: a character is a start bit, eight data bits from bit 0, and a stop bit. -/
theorem test_character_bits :
    characterBits 0xC3 = [false, true, true, false, false, false, false, true, true, true] := by decide

/-- R2, R6: LTX shows the second character of a frame after its first without a gap, and 1 after the frame and without one. -/
theorem test_ltx :
    (List.range 22).map (ltx (driving [0xC3, 0x00] 0 false tabled)) =
        [false, true, true, false, false, false, false, true, true, true,
         false, false, false, false, false, false, false, false, false, true, true, true] ∧
      ltx tabled 0 = true := by decide +kernel

/-- R19, R20: a framing error past the 300 counted characters still makes the outcome FRAMING. -/
theorem test_late_framing :
    gatherChar ⟨5, false⟩ ⟨List.replicate 300 ⟨7, true⟩, false, true, true, false⟩ =
        ⟨List.replicate 300 ⟨7, true⟩, false, true, true, true⟩ ∧
      checkFrame rows 0 ⟨List.replicate 300 ⟨7, true⟩, false, true, true, false⟩ = .format ∧
      checkFrame rows 0 ⟨List.replicate 300 ⟨7, true⟩, false, true, true, true⟩ = .framing := by decide +kernel

/-- R166: the port sends bit 7 first. -/
theorem test_port_bits : portBits 0x80 = [true, false, false, false, false, false, false, false] := by decide

/-- R166, R181: SDO shows bit 7 of the result OK first, and is released in IDLE; levels of SDI give their bytes, bit 7 first, and
the bits of a byte not completed give none. -/
theorem test_port_levels :
    (let s := after (.portByteCompleted 0) (after .join (port tabled))
     s.lpt.sdo = some 0x80 ∧ sdoPin s 0 = some true ∧ sdoPin s 7 = some false) ∧ sdoPin tabled 0 = none ∧
      clockedBytes (portBits 0x41 ++ portBits 5 ++ [true, true]) = [0x41, 5] := by decide +kernel

/-- R18, R20: a framing error in one pattern character and a wrong bit in another give FRAMING and a count of 9. -/
theorem test_damaged_pattern :
    let f : Gather := { heard fill1 with chars := (heard fill1).chars.mapIdx fun i ch =>
      if i = 7 then ⟨ch.data, false⟩ else if i = 14 then ⟨ch.data ^^^ 0x10, true⟩ else ch }
    checkFrame rows (tableDigest rows) f = .framing ∧ patternErrors f = some 9 ∧ faultSender f = some 1 := by decide +kernel

/-! ### One step of each command -/

theorem test_fullReset_low : (after (.fullReset .low) tabled).lpt.subReq = false := by decide
theorem test_fullReset_high : (after (.fullReset .high) (after (.fullReset .low) tabled)).lpt.subReq = true := by decide
theorem test_selNFall : (after .selNFall State.reset).lpt.state = .command := by decide
theorem test_transactionAbandoned : (after .transactionAbandoned (port State.reset)).lpt.state = .idle := by decide
theorem test_setup : (after (.setup defaultArgs) (port State.reset)).cfg = Items.default := by decide +kernel
theorem test_setup_busy : reply (after (.setup defaultArgs) (port listening)) = [0x81] := by decide +kernel
theorem test_table : (after (.table 3 [3, 7, 11]) (port State.reset)).ctr.table = rows := by decide +kernel
theorem test_table_rejected : reply (after (.table 0 []) (port State.reset)) = [0x84] := by decide +kernel
theorem test_join : (after .join (port tabled)).ctr.coldWait = some 48 := by decide +kernel
theorem test_leave : (after .leave (port (active 0 1))).stc.station = .config := by decide +kernel
theorem test_rejoin : (after .rejoin (port (inState .silent 0))).stc.station = .listen := by decide +kernel
theorem test_restart : (after .restart (port tabled)).stc.softReset = .armed := by decide +kernel
theorem test_transactionEnd_restarts : (after .transactionEnd (after .restart (port listening))).stc.station = .config := by
  decide +kernel
theorem test_enable : (after (.enable 0xFF) (port tabled)).lpt.enables = 0x3F := by decide +kernel
theorem test_test_rejected : reply (after (.test 4) (port tabled)) = [0x84] := by decide +kernel
theorem test_submit : (after (.submit 9 2 1 3 [1, 2, 3]) (port tabled)).txs.queues[1] =
    [⟨9, 1, 1, 3, [[1, 2, 3]], .queued⟩] := by decide +kernel
theorem test_submit_free : (after (.submit 9 2 1 3 [1, 2, 3]) (port tabled)).txs.free = 63 := by decide +kernel
theorem test_withdraw : (after (.withdraw 4) (port (withLetter (letter 4 1) tabled))).txs.completions =
    [⟨4, 1, .withdrawn⟩] := by decide +kernel
theorem test_completions : reply (after (.completions 1) (after .transactionEnd
    (after (.withdraw 4) (port (withLetter (letter 4 1) tabled))) |> port)) = [0x80, 1, 4, 9] := by decide +kernel
theorem test_fetch : reply (after .fetch (port (withParcels 1 tabled))) = [0x80, 1, 1, 0, 1, 9, 7] := by decide +kernel
theorem test_status_length : (reply (after .status (port (active 0 1)))).length = 22 := by decide +kernel
theorem test_peers : reply (after (.peers 1 1) (port tabled)) = [0x80, 1, 2, 0, 0xFF, 0, 0, 1] := by decide +kernel
theorem test_faults : (reply (after .faults (port tabled))).length = 18 := by decide +kernel
theorem test_faultClear : reply (after (.faultClear 0xFFFF) (port tabled)) = [0x80] := by decide +kernel
theorem test_counter : reply (after .counter (port tabled)) = [0x80, 0, 0, 0, 0, 0] := by decide +kernel
theorem test_snapshot : (after .snapshot (port tabled)).flt.reportReady = true := by decide +kernel
theorem test_receiverSettled : (after .receiverSettled (after .join (port tabled))).lif.receiver = .idle := by decide +kernel
theorem test_startBitSeen : (after .startBitSeen (after .fallingEdge listening)).fru.frame =
    some ⟨[], false, true, false, false⟩ := by decide +kernel
theorem test_characterReceived : (after (.characterReceived 0xC3 true)
    (after .startBitSeen (after .fallingEdge listening))).fru.frame = some ⟨[⟨0xC3, true⟩], false, true, false, false⟩ := by
  decide +kernel
theorem test_frameEnd_acquires : (after .frameEnd (onLineNow (heard fill1) listening)).stc.station = .active := by
  decide +kernel
theorem test_frameEnd_delivers : (after .frameEnd { onLineNow (heard (data1 0 0 true [7])) (active 0 1) with
    rxu := { State.reset.rxu with segBuf := [7] } }).rxu.delivery = [parcel] := by decide +kernel
theorem test_entryAged : ((after (.entryAged 1 1) (withEntries [entry 0 2 3] (active 0 1))).flt.first) =
    some ⟨.aged, some 1, some 1, 0, 10, []⟩ := by decide +kernel
theorem test_entryAged_leaves : (after (.entryAged 1 1) (withEntries [entry 0 2 3] (active 0 1))).rxu.table = [] := by decide +kernel
theorem test_quietLimitReached : (after .quietLimitReached { withParcels 1 (active 0 1) with
    rxu := { (withParcels 1 (active 0 1)).rxu with quiet := 1 } }).rxu.quietFlag = true := by decide +kernel
theorem test_periodicTransfer : (after .periodicTransfer { active 0 1 with
    cfg := { Items.default with reportMode := .periodic, reportPeriod := 1 } }).flt.reportReady = true := by decide +kernel
theorem test_skipExpiry_sends : ((after .skipExpiry (active 2 1)).lif.tx.map fun x => x.bytes.take 5) =
    some [0xC3, 0x42, 0x02, 0x09, tableDigest rows] := by decide +kernel
theorem test_coldStartWaitExpiry : ((after .coldStartWaitExpiry listening).lif.tx.map fun x => x.bytes.take 4) =
    some [0xC3, 0x60, 0, 0] := by decide +kernel
theorem test_echoClean : (after .echoClean (driving [1] 1 false (active 0 1))).lif.tx = none := by decide +kernel
theorem test_echoFailure : (after .echoFailure (driving [1] 0 true (active 0 1))).ctr.hold = true := by decide +kernel
theorem test_cut : (after .cut (after .leave (port (driving [1, 2] 1 false (active 0 1))))).stc.station = .config := by
  decide +kernel
theorem test_falseStart : (after .falseStart (after .fallingEdge listening)).lif.receiver = .idle := by decide +kernel
theorem test_breakEnded : (after .breakEnded { listening with lif := { listening.lif with receiver := .brk } }).lif.receiver =
    .idle := by decide +kernel
theorem test_portByteCompleted : (after (.portByteCompleted 0x40) (port tabled)).lpt.state = .answer := by decide +kernel
theorem test_unknownCommand : reply (after (.unknownCommand 0x12) (port tabled)) = [0x85] := by decide +kernel
theorem test_softReset : (after .softReset { listening with
    stc := { listening.stc with softReset := .armed } }).stc.station = .config := by decide +kernel

/-! ### States that meet the hypotheses of the statements

Each theorem `meets_<Statement>` shows, clause by clause, a state and operands that meet all hypotheses of that clause. -/

/-- A state with a soft reset in a given stage. -/
def resetStage (x : SoftReset) (s : State) : State := { s with stc := { s.stc with softReset := x } }

/-- A state with a change of state that waits for the cut. -/
def exitWaits (x : Exit) (s : State) : State := { s with stc := { s.stc with pendingExit := some x } }

/-- A state whose ECHO fault, or all faults, are STOPPING. -/
def stopping (kinds : KindSet) (s : State) : State := { s with cfg := { s.cfg with severities := kinds } }

/-- A state whose receiver is in a given state. -/
def receiving (x : Receiver) (s : State) : State := { s with lif := { s.lif with receiver := x } }

/-- A state with other reassembly and delivery contents, with `free` free pool blocks. -/
def stored (es : List Entry) (parcels free : Nat) (s : State) : State :=
  { s with rxu := { s.rxu with segBuf := full, table := es, delivery := List.replicate parcels parcel, free := free } }

theorem meets_StepRunsFront :
    ({ tabled with pending := [.join, .leave] } : State).pending = .join :: [.leave] ∧ tabled.pending = [] := by decide

theorem meets_EveryCommandGoesOn : LineEvent .frameEnd ∧ tabled.stc.softReset ≠ .waiting := ⟨trivial, by decide⟩

theorem meets_Resets :
    (after (.fullReset .low) tabled).rstLow = true ∧ tabled.rstLow = false ∧
      ((resetStage .armed listening).stc.softReset = .armed ∧ (resetStage .armed listening).lif.tx = none) ∧
      (resetStage .waiting (driving [1] 0 false (active 0 0))).stc.softReset = .waiting ∧ tabled.stc.softReset = .none ∧
      ((resetStage .armed (driving [1] 0 false (active 0 0))).stc.softReset = .armed ∧
        (resetStage .armed (driving [1] 0 false (active 0 0))).lif.tx ≠ none) := by decide +kernel

theorem meets_PortFraming :
    (State.reset.lpt.state = .idle ∧ State.reset.rstLow = false) ∧ (after (.fullReset .low) tabled).rstLow = true ∧
      (port tabled).lpt.state = .command ∧ (portIn .arguments tabled).lpt.state = .arguments ∧
      (portIn .answer tabled).lpt.state = .answer ∧ (portIn .discard tabled).lpt.state = .discard ∧
      tabled.stc.softReset ≠ .armed ∧
      (portIn .answer (resetStage .armed listening)).lif.tx = none ∧
      (portIn .answer (resetStage .armed (driving [1] 0 false (active 0 0)))).lif.tx ≠ none := by decide +kernel

theorem meets_UnknownAnswered :
    ((port tabled).lpt.state = .command ∧ Command.ofCode 0x12 = none ∧ Command.ofCode 0xFF = none ∧
      (port tabled).stc.softReset ≠ .waiting) ∧
      (port (resetStage .waiting (driving [1] 0 false (active 0 0)))).stc.softReset = .waiting ∧
      Command.ofCode 0x53 ≠ none ∧ tabled.lpt.state ≠ .command := by decide +kernel

theorem meets_PortByteByState :
    State.reset.lpt.state = .idle ∧ ((port tabled).lpt.state = .command ∧ Command.ofCode 0 = none) ∧
      ((port tabled).lpt.args = [] ∧ Command.ofCode 0x20 = some .submit ∧ Command.submit.argumentTotal [] ≠ some 0) ∧
      (let s := after (.portByteCompleted 0x41) (port tabled)
       s.lpt.state = .arguments ∧ s.lpt.command = some .peers ∧
         Command.peers.argumentTotal (s.lpt.args ++ [1]) ≠ some s.lpt.byteCount) ∧
      (let s := { portIn .arguments tabled with
          lpt := { tabled.lpt with state := .arguments, command := some .submit, byteCount := 6, args := [1, 0, 1, 0, 2] } }
       s.lpt.command = some .submit ∧ 5 ≤ s.lpt.args.length ∧
         Command.submit.argumentTotal s.lpt.args ≠ some s.lpt.byteCount) ∧
      (let s := after .join (port tabled)
       s.lpt.state = .answer ∧ s.lpt.reply = 0x80 :: []) ∧
      (portIn .discard tabled).lpt.state = .discard := by decide +kernel

/-- The clauses on a phase that is not offered, and on one that is: at the frame end of phase 1, and at a boundary. -/
theorem meets_NotOffered :
    NotOffered (phaseAfter 1) .active (active 0 1) ∧ NotOffered (phaseAfter 1) .silent (inState .silent 2) ∧
      ¬ NotOffered (phaseAfter 1) .active (active 2 1) ∧ NotOffered 0 .active (active 1 2) ∧
      ¬ NotOffered 0 .active (active 0 2) := by
  unfold NotOffered; decide +kernel

theorem meets_BytesMakeTheTransaction :
    transactionOf (.submit 9 2 1 2 [1, 2]) = some (.submit, [9, 2, 1, 0, 2], [1, 2]) ∧
      (Instr.submit 9 2 1 2 [1, 2]).wellFormed = true ∧ transactionOf .status = some (.status, [], []) ∧
      (port tabled).lpt.state = .command ∧ (port tabled).lpt.args = [] ∧ (port tabled).txs.staging = [] := by decide +kernel

theorem meets_RefusalHasNoEffect :
    (transactionOf .join ≠ none ∧ ¬ Awaited .join tabled) ∧
      (Awaited .join (port (resetStage .waiting (driving [1] 0 false (active 0 0)))) ∧
        (port (resetStage .waiting (driving [1] 0 false (active 0 0)))).stc.softReset = .waiting) ∧
      Awaited .join (port tabled) :=
  ⟨⟨by decide, (by decide +kernel : ¬ awaits .join [] [] tabled = true)⟩, ⟨rfl, rfl⟩, rfl⟩

theorem defaultArgs_inRange : SetupRanges defaultArgs := by
  constructor <;> decide

theorem meets_Setup :
    (Takeable (.setup defaultArgs) (port listening) ∧ listening.stc.station ≠ .config) ∧
      (Takeable (.setup (32 :: defaultArgs.tail)) (port tabled) ∧ ¬ SetupRanges (32 :: defaultArgs.tail)) ∧
      (Takeable (.setup defaultArgs) (port tabled) ∧ tabled.stc.station = .config ∧ SetupRanges defaultArgs) :=
  ⟨⟨⟨rfl, by decide⟩, by decide⟩, ⟨⟨rfl, by decide⟩, fun h => absurd h.ownAddress (by decide)⟩,
    ⟨rfl, by decide⟩, rfl, defaultArgs_inRange⟩

theorem meets_Table :
    (Takeable (.table 1 [3]) (port listening) ∧ listening.stc.station ≠ .config) ∧ Takeable (.table 0 []) (port tabled) ∧
      Takeable (.table 65 (List.replicate 65 3)) (port tabled) ∧
      (Takeable (.table 1 [0x80]) (port tabled) ∧ ∃ b ∈ ([0x80] : List Byte), 31 < b.toNat / 4) ∧
      Takeable (.table 1 [0x7F]) (port tabled) ∧ (∀ b ∈ ([0x7F] : List Byte), b.toNat / 4 ≤ 31) ∧
      Takeable (.table 64 (List.replicate 64 3)) (port tabled) ∧ tabled.stc.station = .config :=
  ⟨⟨⟨rfl, by decide⟩, by decide⟩, ⟨rfl, by decide⟩, ⟨rfl, by decide⟩, ⟨⟨rfl, by decide⟩, by decide⟩, ⟨rfl, by decide⟩,
    by decide, ⟨rfl, by decide⟩, rfl⟩

theorem meets_Enable : Takeable (.enable 0xFF) (port tabled) := ⟨rfl, by decide⟩

theorem meets_Test :
    Takeable (.test 0) (port tabled) ∧ Takeable (.test 4) (port tabled) ∧ Takeable (.test 1) (port tabled) ∧
      Takeable (.test 3) (port tabled) :=
  ⟨⟨rfl, by decide⟩, ⟨rfl, by decide⟩, ⟨rfl, by decide⟩, ⟨rfl, by decide⟩⟩

theorem meets_Join :
    (Takeable .join (port listening) ∧ listening.stc.station ≠ .config) ∧
      (Takeable .join (port State.reset) ∧ State.reset.stc.station = .config ∧ State.reset.ctr.table = []) ∧
      (Takeable .join (port tabled) ∧ tabled.stc.station = .config ∧ tabled.ctr.table ≠ []) :=
  ⟨⟨⟨rfl, by decide⟩, by decide⟩, ⟨⟨rfl, by decide⟩, rfl, rfl⟩, ⟨rfl, by decide⟩, rfl, by decide⟩

theorem meets_Leave :
    (Takeable .leave (port tabled) ∧ tabled.stc.station = .config) ∧
      (Takeable .leave (port listening) ∧ listening.stc.station ≠ .config ∧ listening.lif.tx = none) ∧
      (Takeable .leave (port (driving [1] 0 false (active 0 0))) ∧
        (driving [1] 0 false (active 0 0)).stc.station ≠ .config ∧ (driving [1] 0 false (active 0 0)).lif.tx ≠ none) :=
  ⟨⟨⟨rfl, by decide⟩, rfl⟩, ⟨⟨rfl, by decide⟩, by decide, rfl⟩, ⟨rfl, by decide⟩, by decide, by decide⟩

theorem meets_Rejoin :
    (Takeable .rejoin (port listening) ∧ listening.stc.station ≠ .silent) ∧
      (Takeable .rejoin (port (inState .silent 0)) ∧ (inState .silent 0).stc.station = .silent) :=
  ⟨⟨⟨rfl, by decide⟩, by decide⟩, ⟨rfl, by decide⟩, rfl⟩

theorem meets_Restart : Takeable .restart (port tabled) := ⟨rfl, by decide⟩

theorem meets_Submit :
    Takeable (.submit 1 8 1 1 [5]) (port tabled) ∧ Takeable (.submit 1 0 1 0 []) (port tabled) ∧
      Takeable (.submit 1 0 32 1 [5]) (port tabled) ∧ Takeable (.submit 1 0 254 1 [5]) (port tabled) ∧
      Takeable (.submit 1 0 0 1 [5]) (port tabled) ∧
      (Takeable (.submit 4 0 1 1 [5]) (port (withLetter (letter 4 1) tabled)) ∧
        letter 4 1 ∈ (withLetter (letter 4 1) tabled).txs.queues[1]) ∧
      (let s := { port tabled with txs := { tabled.txs with queues := #v[List.replicate 8 (letter 1 0), [], [], []] } }
       Takeable (.submit 9 0 1 1 [5]) s ∧ 8 ≤ s.txs.queues[0].length ∧ (∀ j : Cls, ∀ m ∈ s.txs.queues[j], m.tag ≠ 9)) ∧
      (let s := { port tabled with txs := { tabled.txs with free := 0 } }
       Takeable (.submit 9 0 1 1 [5]) s ∧ s.txs.free < (1 + 63) / 64) ∧
      (Takeable (.submit 9 7 255 65 (List.replicate 65 5)) (port tabled) ∧ (65 + 63) / 64 ≤ tabled.txs.free) :=
  ⟨⟨rfl, by decide⟩, ⟨rfl, by decide⟩, ⟨rfl, by decide⟩, ⟨rfl, by decide⟩, ⟨rfl, by decide⟩, ⟨⟨rfl, by decide⟩, by decide⟩,
    ⟨⟨rfl, by decide⟩, by decide, by decide +kernel⟩, ⟨⟨rfl, by decide⟩, by decide⟩, ⟨rfl, by decide⟩, by decide⟩

/-- A state whose message 4 is the current context, with its only segment in flight. -/
def flying (last : Bool) (s : State) : State :=
  let m := { letter 4 1 with state := .started 0 0 }
  { withLetter m s with txs := { (withLetter m s).txs with current := some 4, inFlight := some (.data 4 0 last) } }

theorem meets_Withdraw :
    (TagsDistinct (port tabled) ∧ Takeable (.withdraw 4) (port tabled) ∧
      ∀ j : Cls, ∀ m ∈ tabled.txs.queues[j], m.tag ≠ 4) ∧
      (let s := port (flying true (driving [1] 0 false (active 0 0)))
       TagsDistinct s ∧ Takeable (.withdraw 4) s ∧ { letter 4 1 with state := .started 0 0 } ∈ s.txs.queues[1] ∧
         s.txs.inFlight = some (.data 4 0 true)) ∧
      (let s := port (withLetter (letter 4 1) { tabled with
          txs := { tabled.txs with completions := List.replicate 16 ⟨3, 0, .sent⟩ } })
       TagsDistinct s ∧ Takeable (.withdraw 4) s ∧ letter 4 1 ∈ s.txs.queues[1] ∧ 16 ≤ completionsCounted s.txs) ∧
      (let s := port (withLetter (letter 4 1) { tabled with
          txs := { tabled.txs with completions := List.replicate 15 ⟨3, 0, .sent⟩ } })
       TagsDistinct s ∧ Takeable (.withdraw 4) s ∧ letter 4 1 ∈ s.txs.queues[1] ∧ s.txs.inFlight = none ∧
         completionsCounted s.txs < 16) := by
  refine ⟨⟨by unfold TagsDistinct; decide +kernel, ⟨rfl, by decide⟩, by decide +kernel⟩,
    ⟨by unfold TagsDistinct; decide +kernel, ⟨rfl, by decide⟩, by decide +kernel, rfl⟩,
    ⟨by unfold TagsDistinct; decide +kernel, ⟨rfl, by decide⟩, by decide +kernel, by decide +kernel⟩,
    by unfold TagsDistinct; decide +kernel, ⟨rfl, by decide⟩, by decide +kernel, rfl, by decide +kernel⟩

theorem meets_Completions :
    Takeable (.completions 0) (port tabled) ∧ Takeable (.completions 17) (port tabled) ∧
      (Takeable (.completions 1) (port tabled) ∧ tabled.txs.completions = []) ∧
      (let s := { port tabled with txs := { tabled.txs with completions := [⟨3, 0, .sent⟩] } }
       Takeable (.completions 16) s ∧ s.txs.completions ≠ []) :=
  ⟨⟨rfl, by decide⟩, ⟨rfl, by decide⟩, ⟨⟨rfl, by decide⟩, rfl⟩, ⟨rfl, by decide⟩, by decide⟩

theorem meets_Fetch :
    (Takeable .fetch (port tabled) ∧ tabled.rxu.delivery = []) ∧
      (Takeable .fetch (port (withParcels 2 tabled)) ∧ (withParcels 2 tabled).rxu.delivery = parcel :: [parcel]) :=
  ⟨⟨⟨rfl, by decide⟩, rfl⟩, ⟨rfl, by decide⟩, rfl⟩

theorem meets_TakenByItsCode :
    (port tabled).lpt.state = .command ∧ (port tabled).lpt.args = [] ∧ (port tabled).txs.staging = [] := by decide +kernel

theorem meets_readings :
    Takeable .status (port tabled) ∧ Takeable .faults (port tabled) ∧ Takeable (.faultClear 0xFFFF) (port tabled) ∧
      Takeable .counter (port tabled) :=
  ⟨⟨rfl, by decide⟩, ⟨rfl, by decide⟩, ⟨rfl, by decide⟩, ⟨rfl, by decide⟩⟩

theorem meets_Peers :
    ∀ x ∈ ([(32, 1), (0, 0), (0, 33), (1, 32), (0, 32), (31, 1)] : List (Byte × Byte)),
      Takeable (.peers x.1 x.2) (port tabled) :=
  fun x _ => ⟨rfl, by decide⟩

theorem meets_Snapshot :
    (Takeable .snapshot (port tabled) ∧ tabled.cfg.reportMode = .onDemand) ∧
      (let s := { port tabled with cfg := { Items.default with reportMode := .periodic } }
       Takeable .snapshot s ∧ s.cfg.reportMode = .periodic) :=
  ⟨⟨⟨rfl, by decide⟩, rfl⟩, ⟨rfl, by decide⟩, rfl⟩

theorem meets_FaultClear :
    let r : FirstFault := ⟨.crc, none, none, 0, 0, []⟩
    ({ tabled with flt := { tabled.flt with flags := 4, first := some r } } : State).flt.first = some r ∧
      tabled.flt.first = none := by decide

/-! #### The receiver -/

theorem meets_ReceiverMoves :
    (receiving .settling tabled).lif.receiver = .settling ∧ (receiving .idle tabled).lif.receiver = .idle ∧
      (receiving .brk tabled).lif.receiver = .brk ∧
      (let s := receiving (.character false) (active 0 0)
       s.lif.receiver = .character false ∧ s.lif.frameEndDue = false ∧ s.ctr.skip ≠ .awaitingSample) ∧
      (let s := receiving (.character false) (onLineNow (heard fill1) (active 0 0))
       s.fru.frame ≠ none ∧ s.lif.tx = none ∧ (after .frameEnd s).lif.frameEndDue = true ∧
         (after .frameEnd s).lif.receiver = .character false ∧ (after .frameEnd s).lif.tx = none ∧
         (after .frameEnd s).ctr.skip ≠ .awaitingSample) ∧
      tabled.fru.frame = none ∧ (driving [1] 0 false (active 0 0)).lif.tx ≠ none := by decide +kernel

theorem meets_StartBitSeen :
    (receiving .settling tabled).lif.receiver = .settling ∧
      ((receiving (.character false) listening).lif.receiver = .character false ∧
        (receiving (.character false) listening).fru.frame = none) ∧
      (onLineNow (heard fill1) (receiving (.character false) listening)).fru.frame = some (heard fill1) ∧
      (heard fill1).begun = true ∧
      (let g : Gather := ⟨[], true, false, false, false⟩
       (onLineNow g (receiving (.character false) (active 0 0))).fru.frame = some g ∧ g.begun = false ∧
         (active 0 0).ctr.aligned = true ∧
         (onLineNow g (receiving (.character false) listening)).fru.frame = some g ∧ g.own = true ∧
         listening.lif.tx = none ∧ listening.ctr.aligned = false) ∧
      (receiving .idle listening).lif.receiver ≠ .settling := by decide +kernel

/-- R5, R11: the start bit of another station's frame after an own frame that was not heard, while UNALIGNED: a frame of that
station, or the own one going on (log 31). -/
theorem test_unheard_own_frame :
    let g : Gather := ⟨[], true, false, false, false⟩
    let s := onLineNow g (receiving (.character false) listening)
    startFrame true s = ⟨[], false, true, false, false⟩ ∧ startFrame false s = { g with begun := true } ∧
      startFrame true (onLineNow g (receiving (.character false) (active 0 1))) =
        { g with begun := true, alignedAtStart := true } ∧
      startFrame true { s with lif := { s.lif with frameEndDue := true } } = { g with begun := true } := by decide +kernel

/-- R5, R11, R39: a cold-start wait that runs out on an edge not yet confirmed leaves no own frame that was not heard, so the start
bit begins another station's frame. -/
theorem test_unheard_own_frame_over :
    let s := onLineNow ⟨[], true, false, false, false⟩ (receiving (.character false) listening)
    let t := after .coldStartWaitExpiry s
    t.stc.station = .listen ∧ t.fru.frame = none ∧
      (after .startBitSeen t).fru.frame = some ⟨[], false, true, false, false⟩ := by decide +kernel

theorem meets_CharacterReceived :
    (receiving .idle listening).lif.receiver ≠ .character true ∧
      (receiving (.character true) listening).lif.receiver = .character true ∧
      (receiving (.character true) listening).lif.tx = none ∧ (receiving (.character true) listening).fru.frame = none ∧
      (let x : Transmission := ⟨[1, 2], 1, false⟩
       (receiving (.character true) (driving [1, 2] 1 false (active 0 0))).lif.tx = some x ∧ x.bytes[x.matched]? = some 2) ∧
      (⟨[], true, true, true, false⟩ : Gather).own = true ∧ (heard fill1).own = false ∧
      ¬ (kindOf (heard fill1).bytes = some .data) ∧
      (let f := heard ((data1 0 0 true [7]).take 8)
       kindOf f.bytes = some .data ∧ f.chars.length = 8 ∧ 1 ≤ lengthOf f.bytes) ∧
      (let f := heard ((data1 0 0 true [7, 8]).take 9)
       kindOf f.bytes = some .data ∧ 8 < f.chars.length ∧ f.chars.length < 8 + lengthOf f.bytes) := by decide +kernel

/-! #### Frame ends -/

/-- A frame of another station ends in a given state. -/
theorem endsWith_of {f : Gather} {o : FrameOutcome} {s : State} (h1 : s.fru.frame = some f) (h2 : f.begun = true)
    (h3 : f.own = false) (h4 : s.lif.tx = none) (h5 : s.lif.receiver = .idle)
    (h6 : checkFrame s.ctr.table s.ctr.digest f = o) : EndsWith f o s :=
  ⟨h1, h2, h3, ⟨h4, Or.inl h5⟩, h6⟩

/-- The FILL frame of station 1 with its CRC spoilt. -/
def spoilt : Gather := heard (shortFrame .fill 1 1 9 (tableDigest rows) ⟨false, true⟩)

theorem spoilt_crc : checkFrame rows (tableDigest rows) spoilt = .crc := by decide +kernel

theorem fill1_clean : checkFrame rows (tableDigest rows) (heard fill1) = .clean := by decide +kernel

theorem fill1_place : phaseOf (heard fill1).bytes = 1 ∧ cycleOf (heard fill1).bytes = 9 := by decide +kernel

theorem meets_FaultFrameRecorded :
    EndsWith spoilt .crc (onLineNow spoilt (active 0 1)) ∧ FrameOutcome.crc.kind = some .crc ∧
      ¬ LastPhase (active 0 1) ∧
      (active 0 1).stc.station ≠ .cold ∧
      (∀ kinds ∈ [(0 : KindSet), 4],
        let s := onLineNow spoilt (stopping kinds (inState .cold 0))
        EndsWith spoilt .crc s ∧ ¬ LastPhase s ∧ s.stc.station = .cold ∧ s.ctr.aligned = false) ∧
      Stops .crc (stopping 4 (inState .cold 0)) ∧ EndsWith spoilt .crc (onLineNow spoilt listening) ∧
      listening.ctr.aligned = false :=
  ⟨endsWith_of rfl rfl rfl rfl rfl (by decide +kernel), rfl, by unfold LastPhase; decide +kernel, by decide,
    fun _ _ => ⟨endsWith_of rfl rfl rfl rfl rfl spoilt_crc, fun h => absurd h.1 Bool.false_ne_true, rfl, rfl⟩, by decide,
    endsWith_of rfl rfl rfl rfl rfl (by decide +kernel), rfl⟩

/-- The part of a state that a DIGEST or a FOREIGN outcome needs. -/
theorem meets_FaultFrameRecorded_notices :
    (let f := heard (shortFrame .fill 1 1 9 0 ⟨false, false⟩)
     EndsWith f .digest (onLineNow f (active 0 1))) ∧
      (let f := heard (shortFrame .fill 2 1 9 (tableDigest rows) ⟨false, false⟩)
       EndsWith f .foreign (onLineNow f (active 0 1))) :=
  ⟨endsWith_of rfl rfl rfl rfl rfl (by decide +kernel), endsWith_of rfl rfl rfl rfl rfl (by decide +kernel)⟩

/-- A second character with a good stop bit, and one with a bad one. -/
theorem meets_FaultFrameRecorded_sender :
    spoilt.chars[1]? = some ⟨0x41, true⟩ ∧ faultSender spoilt = some 1 ∧
      faultSender { spoilt with chars := [⟨0xC3, true⟩, ⟨0x41, false⟩] } = none := by decide +kernel

theorem meets_FaultFrameStops :
    (EndsWith spoilt .crc (onLineNow spoilt (stopping 4 (active 0 1))) ∧ Stops .crc (stopping 4 (active 0 1)) ∧
      (active 0 1).stc.station = .active) ∧
      (EndsWith spoilt .crc (onLineNow spoilt (stopping 4 listening)) ∧ Stops .crc (stopping 4 listening)) ∧
      (EndsWith spoilt .crc (onLineNow spoilt (inState .silent 0)) ∧ (inState .silent 0).stc.station = .silent) ∧
      (¬ Stops .crc listening ∧ listening.stc.station = .listen) ∧
      (EndsWith spoilt .crc (onLineNow spoilt (active 0 1)) ∧ ¬ Stops .crc (active 0 1) ∧ (active 0 1).ctr.p.val < 63 ∧
        ¬ OffersNext (active 0 1)) ∧
      (EndsWith spoilt .crc (onLineNow spoilt (inState .cold 0)) ∧ ¬ Stops .crc (inState .cold 0) ∧
        (inState .cold 0).stc.station = .cold) :=
  ⟨⟨endsWith_of rfl rfl rfl rfl rfl (by decide +kernel), by decide, rfl⟩,
    ⟨endsWith_of rfl rfl rfl rfl rfl (by decide +kernel), by decide⟩,
    ⟨endsWith_of rfl rfl rfl rfl rfl (by decide +kernel), rfl⟩, ⟨by decide, rfl⟩,
    ⟨endsWith_of rfl rfl rfl rfl rfl (by decide +kernel), by decide, by decide, by unfold OffersNext; decide +kernel⟩,
    endsWith_of rfl rfl rfl rfl rfl (by decide +kernel), by decide, rfl⟩

theorem meets_CleanFrameAcquires :
    (∀ x : Station, x = .listen ∨ x = .cold ∨ x = .silent →
      EndsWith (heard fill1) .clean (onLineNow (heard fill1) (inState x 0)) ∧ (inState x 0).ctr.aligned = false) ∧
      (phaseOf (heard fill1).bytes).val + 1 < rows.length ∧ rows.length ≤ 64 :=
  ⟨by rintro x (rfl | rfl | rfl) <;> exact ⟨endsWith_of rfl rfl rfl rfl rfl (by decide +kernel), rfl⟩,
    by decide +kernel, by decide⟩

/-- Station 1's frame ends in step at a station in ACTIVE. -/
theorem inStep_of {bytes : List Byte} {s : State} (h0 : s.fru.frame = some (heard bytes)) (h1 : s.lif.tx = none)
    (h2 : s.lif.receiver = .idle) (h3 : s.ctr = (active 0 1).ctr) (h4 : s.stc.station = .active)
    (h5 : checkFrame rows (tableDigest rows) (heard bytes) = .clean) (h6 : phaseOf (heard bytes).bytes = 1)
    (h7 : cycleOf (heard bytes).bytes = 9) : InStep (heard bytes) s :=
  ⟨endsWith_of h0 rfl rfl h1 h2 (by rw [h3]; exact h5), by unfold MidCycle; rw [h3]; decide +kernel, by rw [h3, h6]; rfl,
    by rw [h3, h7]; rfl, Or.inl h4⟩

/-- A FILL frame, a DATA frame that is taken, one for another station, and one that began while UNALIGNED, each in step. -/
theorem meets_CleanFrameInStep :
    (InStep (heard fill1) (onLineNow (heard fill1) (active 0 1)) ∧ kindOf (heard fill1).bytes ≠ some .data ∧
      ¬ Taken (heard fill1) (active 0 1)) ∧
      (let f := heard (data1 2 0 true [7])
       InStep f (onLineNow f (active 0 1)) ∧ kindOf f.bytes = some .data ∧ Taken f (active 0 1)) ∧
      (let f := heard (dataFrame 1 1 9 (tableDigest rows) ⟨2, 1, 0, 0, true, [7]⟩ ⟨false, false⟩)
       InStep f (onLineNow f (active 0 1)) ∧ kindOf f.bytes = some .data ∧ ¬ Taken f (active 0 1)) ∧
      (let f := { heard (data1 2 0 true [7]) with alignedAtStart := false }
       EndsWith f .clean (onLineNow f (active 0 1)) ∧ phaseOf f.bytes = (active 0 1).ctr.p ∧
         cycleOf f.bytes = (active 0 1).ctr.c ∧ kindOf f.bytes = some .data ∧ ¬ Taken f (active 0 1)) :=
  ⟨⟨inStep_of rfl rfl rfl rfl rfl (by decide +kernel) (by decide +kernel) (by decide +kernel), by decide +kernel,
      by decide +kernel⟩,
    ⟨inStep_of rfl rfl rfl rfl rfl (by decide +kernel) (by decide +kernel) (by decide +kernel), by decide +kernel,
      by decide +kernel⟩,
    ⟨inStep_of rfl rfl rfl rfl rfl (by decide +kernel) (by decide +kernel) (by decide +kernel), by decide +kernel,
      by decide +kernel⟩,
    endsWith_of rfl rfl rfl rfl rfl (by decide +kernel), by decide +kernel⟩

/-- A FILL frame and a DATA frame that is taken, each of phase 1 at a station in phase 0. -/
theorem meets_RealignmentSlips :
    (let s := onLineNow (heard fill1) (active 0 0)
     EndsWith (heard fill1) .clean s ∧ s.ctr.aligned = true ∧ s.stc.station = .active ∧
       phaseOf (heard fill1).bytes ≠ s.ctr.p ∧ (phaseOf (heard fill1).bytes).val + 1 < s.ctr.table.length ∧
       s.ctr.table.length ≤ 64 ∧ ¬ Taken (heard fill1) s ∧ ¬ Stops .slip s) ∧
      (let f := heard (data1 2 0 true [7])
       let s := onLineNow f (stopping 0x200 (active 0 0))
       EndsWith f .clean s ∧ Taken f s ∧ phaseOf f.bytes ≠ s.ctr.p ∧ Stops .slip s) :=
  ⟨⟨endsWith_of rfl rfl rfl rfl rfl (by decide +kernel), rfl, rfl, by decide +kernel⟩,
    endsWith_of rfl rfl rfl rfl rfl (by decide +kernel), by decide +kernel⟩

/-- A DATA frame of station 1 ends in step at a station in ACTIVE that takes it. -/
theorem takenInStep_of {number : MsgNo} {index : Nat} {last : Bool} {payload : List Byte} (s : State)
    (h1 : s.lif.tx = none) (h2 : s.lif.receiver = .idle) (h3 : s.ctr = (active 0 1).ctr) (h4 : s.stc.station = .active)
    (ho : s.cfg.ownAddress = 0)
    (read : let f := heard (data1 number index last payload)
      checkFrame rows (tableDigest rows) f = .clean ∧ phaseOf f.bytes = 1 ∧ cycleOf f.bytes = 9 ∧
        kindOf f.bytes = some .data ∧ destinationOf f.bytes = 0) :
    TakenInStep (heard (data1 number index last payload))
      (onLineNow (heard (data1 number index last payload)) s) := by
  obtain ⟨clean, phase, cycle, kind, destination⟩ := read
  refine ⟨inStep_of rfl h1 h2 h3 h4 clean phase cycle, kind, rfl, Or.inl ?_⟩
  rw [destination]
  show (0 : Byte).toNat = s.cfg.ownAddress.val
  rw [ho]; rfl

/-- A whole message of one segment, with room for it. -/
theorem meets_TakenFrameKept_single :
    let f := heard (data1 2 0 true [7])
    let s := onLineNow f (stored [] 15 1 (active 0 1))
    TakenInStep f s ∧ (∀ e ∈ s.rxu.table, ¬ (e.sender = senderOf f.bytes ∧ e.cls = classOf f.bytes)) ∧
      indexOf f.bytes = 0 ∧ lastOf f.bytes = true ∧ 1 ≤ s.rxu.free ∧ s.rxu.delivery.length < 16 :=
  ⟨takenInStep_of _ rfl rfl rfl rfl rfl (by decide +kernel), by decide +kernel⟩

/-- A first segment, with room for it; an orphan. -/
theorem meets_TakenFrameKept_first :
    (let f := heard (data1 2 0 false full)
     let s := onLineNow f (stored [] 0 1 (active 0 1))
     TakenInStep f s ∧ (∀ e ∈ s.rxu.table, ¬ (e.sender = senderOf f.bytes ∧ e.cls = classOf f.bytes)) ∧
       indexOf f.bytes = 0 ∧ lastOf f.bytes = false ∧ 1 ≤ s.rxu.free ∧ s.rxu.table.length < 8) ∧
      (let f := heard (data1 2 1 true [7])
       let s := onLineNow f (stored [] 0 0 (active 0 1))
       TakenInStep f s ∧ s.rxu.table = [] ∧ 1 ≤ indexOf f.bytes) :=
  ⟨⟨takenInStep_of _ rfl rfl rfl rfl rfl (by decide +kernel), by decide +kernel⟩,
   ⟨takenInStep_of _ rfl rfl rfl rfl rfl (by decide +kernel), by decide +kernel⟩⟩

/-- A middle and a last segment that agree with their entry. -/
theorem meets_TakenFrameKept_continues :
    (let f := heard (data1 2 1 false full)
     let s := onLineNow f (stored [entry 2 1 3] 0 1 (active 0 1))
     TakenInStep f s ∧ findEntry (senderOf f.bytes) (classOf f.bytes) s.rxu = some (entry 2 1 3) ∧
       (entry 2 1 3).next = indexOf f.bytes ∧ (entry 2 1 3).number = numberOf f.bytes ∧ 1 ≤ s.rxu.free ∧
       lastOf f.bytes = false) ∧
      (let f := heard (data1 2 7 true [7])
       let s := onLineNow f (stored [entry 2 7 0] 15 1 (active 0 1))
       TakenInStep f s ∧ findEntry (senderOf f.bytes) (classOf f.bytes) s.rxu = some (entry 2 7 0) ∧
         (entry 2 7 0).next = indexOf f.bytes ∧ (entry 2 7 0).number = numberOf f.bytes ∧ 1 ≤ s.rxu.free ∧
         lastOf f.bytes = true ∧ s.rxu.delivery.length < 16) :=
  ⟨⟨takenInStep_of _ rfl rfl rfl rfl rfl (by decide +kernel), by decide +kernel⟩,
   ⟨takenInStep_of _ rfl rfl rfl rfl rfl (by decide +kernel), by decide +kernel⟩⟩

/-- A continuation that contradicts its entry, and one that agrees with it and finds no room. -/
theorem meets_TakenFrameLost_continues :
    (let f := heard (data1 3 1 true [7])
     let s := onLineNow f (stored [entry 2 1 0] 0 1 (active 0 1))
     TakenInStep f s ∧ findEntry (senderOf f.bytes) (classOf f.bytes) s.rxu = some (entry 2 1 0) ∧ 1 ≤ indexOf f.bytes ∧
       (entry 2 1 0).number ≠ numberOf f.bytes) ∧
      (let f := heard (data1 2 1 true [7])
       let s := onLineNow f (stored [entry 2 1 0] 16 1 (active 0 1))
       TakenInStep f s ∧ findEntry (senderOf f.bytes) (classOf f.bytes) s.rxu = some (entry 2 1 0) ∧
         (entry 2 1 0).next = indexOf f.bytes ∧ (entry 2 1 0).number = numberOf f.bytes ∧ lastOf f.bytes = true ∧
         16 ≤ s.rxu.delivery.length) :=
  ⟨⟨takenInStep_of _ rfl rfl rfl rfl rfl (by decide +kernel), by decide +kernel⟩,
   ⟨takenInStep_of _ rfl rfl rfl rfl rfl (by decide +kernel), by decide +kernel⟩⟩

/-- The reassembly table of one entry is well formed. -/
theorem oneEntry_wf {s : State} (h : s.rxu.table = [entry 2 1 0]) : ReassemblyWf s :=
  ⟨by rw [h]; decide, by rw [h]; decide, by rw [h]; decide⟩

/-- A segment 0 without an entry and without room, and one with an entry. -/
theorem meets_TakenFrameLost_starts :
    (let f := heard (data1 2 0 true [7])
     let s := onLineNow f (stored [] 16 1 (active 0 1))
     TakenInStep f s ∧ findEntry (senderOf f.bytes) (classOf f.bytes) s.rxu = none ∧ indexOf f.bytes = 0 ∧
       lastOf f.bytes = true ∧ 16 ≤ s.rxu.delivery.length) ∧
      (∀ parcels, parcels = 15 ∨ parcels = 16 →
        let f := heard (data1 2 0 true [7])
        let s := onLineNow f (stored [entry 2 1 0] parcels 0 (active 0 1))
        TakenInStep f s ∧ ReassemblyWf s ∧
          findEntry (senderOf f.bytes) (classOf f.bytes) s.rxu = some (entry 2 1 0) ∧ indexOf f.bytes = 0 ∧
          lastOf f.bytes = true ∧ s.rxu.delivery.length = parcels ∧ Stops .sequence (stopping 0x20 s)) :=
  ⟨⟨takenInStep_of _ rfl rfl rfl rfl rfl (by decide +kernel), by decide +kernel⟩,
   by
    intro parcels h
    exact ⟨takenInStep_of _ rfl rfl rfl rfl rfl (by decide +kernel), oneEntry_wf rfl,
      by rcases h with rfl | rfl <;> decide +kernel⟩⟩

/-- Eight entries of other keys. -/
def crowd : List Entry :=
  ((List.finRange 4).map fun k => ⟨2, k, 0, false, 1, [full], 0⟩) ++ (List.finRange 4).map fun k => ⟨3, k, 0, false, 1, [full], 0⟩

/-- A first segment of a longer message over an entry, over a full table, and with no free pool block; and a continuation with
no free pool block. -/
theorem meets_TakenFrameLost_first :
    (let f := heard (data1 2 0 false full)
     let s := onLineNow f (stored [entry 2 1 0] 0 0 (active 0 1))
     TakenInStep f s ∧ ReassemblyWf s ∧ findEntry (senderOf f.bytes) (classOf f.bytes) s.rxu = some (entry 2 1 0) ∧
       indexOf f.bytes = 0 ∧ lastOf f.bytes = false) ∧
      (let f := heard (data1 2 0 false full)
       let s := onLineNow f (stored crowd 0 56 (active 0 1))
       TakenInStep f s ∧ findEntry (senderOf f.bytes) (classOf f.bytes) s.rxu = none ∧ lastOf f.bytes = false ∧
         8 ≤ s.rxu.table.length ∧ (stored [] 0 0 s).rxu.free = 0) ∧
      (let f := heard (data1 2 1 false full)
       let s := onLineNow f (stored [entry 2 1 0] 0 0 (active 0 1))
       TakenInStep f s ∧ findEntry (senderOf f.bytes) (classOf f.bytes) s.rxu = some (entry 2 1 0) ∧
         (entry 2 1 0).next = indexOf f.bytes ∧ (entry 2 1 0).number = numberOf f.bytes ∧ s.rxu.free = 0) :=
  ⟨⟨takenInStep_of _ rfl rfl rfl rfl rfl (by decide +kernel), oneEntry_wf rfl, by decide +kernel⟩,
   ⟨takenInStep_of _ rfl rfl rfl rfl rfl (by decide +kernel), by decide +kernel⟩,
   ⟨takenInStep_of _ rfl rfl rfl rfl rfl (by decide +kernel), by decide +kernel⟩⟩

/-- An own frame that has been heard. -/
def ownHeard : Gather := ⟨[], true, true, false, false⟩

theorem meets_OwnFrameEnds :
    (ownHeard.begun = true ∧ ownHeard.own = true) ∧
      (let s := onLineNow ownHeard { inState .cold 0 with
          ctr := { (inState .cold 0).ctr with coldAlignPending := true } }
       s.fru.frame = some ownHeard ∧ LineFree s ∧ s.ctr.coldAlignPending = true ∧
         (s.ctr.table[(0 : Fin 64).val]?.map PhaseEntry.owner) = some s.cfg.ownAddress ∧
         (0 : Fin 64).val + 1 < s.ctr.table.length ∧ s.ctr.table.length ≤ 64) ∧
      (let s := onLineNow ownHeard (active 1 1)
       s.fru.frame = some ownHeard ∧ LineFree s ∧ s.ctr.coldAlignPending = false ∧ MidCycle s ∧ s.ctr.p.val < 63 ∧
         (s.ctr.table[s.ctr.p.val + 1]?.map PhaseEntry.owner) ≠ some s.cfg.ownAddress) ∧
      (let s := onLineNow ownHeard (inState .listen 0)
       LineFree s ∧ s.ctr.coldAlignPending = false ∧ s.ctr.aligned = false) := by
  refine ⟨⟨rfl, rfl⟩, ⟨rfl, ⟨rfl, Or.inl rfl⟩, rfl, by decide +kernel, by decide +kernel, by decide +kernel⟩,
    ⟨rfl, ⟨rfl, Or.inl rfl⟩, rfl, by unfold MidCycle; decide +kernel, by decide +kernel, by decide +kernel⟩,
    ⟨rfl, Or.inl rfl⟩, rfl, rfl⟩

/-! #### Timers and boundaries -/

theorem meets_SkipExpiryInsideCycle :
    (let s := active 0 1
     MidCycle s ∧ s.ctr.p.val < 63 ∧ s.ctr.skip = .running 2 ∧ s.lif.tx = none ∧ s.lif.receiver ≠ .character false ∧
       s.fru.frame = none ∧ (s.ctr.table[s.ctr.p.val + 1]?.map PhaseEntry.owner) ≠ some s.cfg.ownAddress) ∧
      (let s := receiving (.character false) (active 0 1)
       s.ctr.aligned = true ∧ s.ctr.skip = .running 2 ∧ s.lif.tx = none ∧ s.lif.receiver = .character false) ∧
      (let s := after .skipExpiry (receiving (.character false) (active 0 1))
       MidCycle s ∧ s.ctr.skip = .awaitingSample ∧ s.lif.tx = none ∧ s.lif.receiver = .character false ∧
         s.lif.frameEndDue = false ∧ s.fru.frame = none) ∧ tabled.ctr.aligned = false := by
  refine ⟨⟨by unfold MidCycle; decide +kernel, by decide +kernel⟩, by decide +kernel,
    ⟨by unfold MidCycle; decide +kernel, by decide +kernel⟩, by decide⟩

/-- The station 0 at the end of a cycle, with an entry one boundary from the age limit, a younger one, and records waiting. -/
def atBoundary : State :=
  { active 0 2 with rxu := { State.reset.rxu with table := [⟨1, 0, 0, false, 1, [[1]], 3⟩, entry 0 1 0], delivery := [parcel],
                                                  quiet := 1, free := 61 } }

/-- A FILL frame of station 2 in phase 2, the last one, of cycle 9. -/
def fill2 : Gather := heard (shortFrame .fill 2 2 9 (tableDigest rows) ⟨false, false⟩)

theorem fill2_clean : checkFrame rows (tableDigest rows) fill2 = .clean := by decide +kernel

theorem fill2_place : phaseOf fill2.bytes = 2 ∧ cycleOf fill2.bytes = 9 := by decide +kernel

/-- A whole message of station 2 in phase 2 of cycle 9. -/
def data2 : Gather := heard (dataFrame 2 2 9 (tableDigest rows) ⟨0, 1, 0, 0, true, [7]⟩ ⟨false, false⟩)

/-- A boundary by skip expiry. -/
theorem skips {s : State} (h1 : LastPhase s) (h2 : s.ctr.skip = .running 2) (h3 : s.lif.tx = none)
    (h4 : s.lif.receiver = .idle) : BoundaryEnd s .skipExpiry (Ending.plain s) :=
  ⟨_, .skip 2 h1.1 h2 h3 (by rw [h4]; exact fun h => nomatch h), h1.2⟩

theorem lastPhase_active : LastPhase (active 0 2) := by unfold LastPhase; decide +kernel

/-- A boundary by a skip expiry with entries and records, and by the frame end of an own frame. -/
theorem meets_CycleBoundary :
    BoundaryEnd atBoundary .skipExpiry (Ending.plain atBoundary) ∧
      (∀ e ∈ atBoundary.rxu.table, e.age < atBoundary.cfg.ageLimit) ∧
      (∃ e ∈ atBoundary.rxu.table, AgesOut atBoundary e) ∧ ReassemblyWf { atBoundary with
        rxu := { atBoundary.rxu with table := [entry 0 1 3] } } ∧
      (atBoundary.rxu.delivery ≠ [] ∧ atBoundary.rxu.quiet < atBoundary.cfg.quietLimit ∧ (active 0 2).rxu.delivery = []) ∧
      (let s := { atBoundary with rxu := { atBoundary.rxu with quiet := 2 } }
       s.rxu.delivery ≠ [] ∧ s.cfg.quietLimit ≤ s.rxu.quiet) ∧
      (Stops .aged (stopping 0x80 atBoundary) ∧ (stopping 0x80 atBoundary).stc.station ≠ .config) ∧
      (let s := { atBoundary with cfg := { Items.default with reportMode := .periodic, reportPeriod := 1 } }
       s.cfg.reportMode = .periodic ∧ s.flt.period + 1 = s.cfg.reportPeriod) ∧
      (let s := onLineNow ownHeard (active 2 2)
       BoundaryEnd s .frameEnd (Ending.plain s)) :=
  ⟨skips (by unfold LastPhase; decide +kernel) rfl rfl rfl, by decide +kernel, by unfold AgesOut; decide +kernel,
    ⟨by decide, by decide, by decide⟩, by decide +kernel, by decide +kernel, by decide +kernel, by decide +kernel,
    _, .own ownHeard rfl rfl rfl rfl ⟨rfl, Or.inl rfl⟩ rfl, by decide +kernel⟩

/-- The frame ends of other stations' frames at the end of the last phase: with a fault, in step (FILL, and DATA that is taken
with room for it), and realigning. -/
theorem meets_CycleBoundary_frames :
    (let f := { fill2 with lateBad := true }
     let s := onLineNow f (stopping 1 (active 0 2))
     (∃ w, BoundaryEnd s .frameEnd w ∧ w.fault.map FirstFault.kind = some .framing) ∧ Stops .framing s) ∧
      (let s := onLineNow fill2 (active 0 2)
       ∃ w, BoundaryEnd s .frameEnd w ∧ w.took = none ∧ w.heard = some 2) ∧
      (let s := onLineNow data2 (active 0 2)
       (∃ w, BoundaryEnd s .frameEnd w ∧ w.took = some data2) ∧ indexOf data2.bytes = 0 ∧ lastOf data2.bytes = true ∧
         1 ≤ s.rxu.free ∧ s.rxu.delivery.length < 16 ∧ s.rxu.table = []) ∧
      (let s := onLineNow fill2 (active 0 0)
       ∃ w, BoundaryEnd s .frameEnd w ∧ w.fault.map FirstFault.kind = some .slip) :=
  ⟨⟨⟨_, ⟨_, .fault _ .framing .framing (endsWith_of rfl rfl rfl rfl rfl (by decide +kernel)) rfl rfl (by decide),
        by decide +kernel⟩, rfl⟩, by decide⟩,
    ⟨_, ⟨_, .inStep _ (endsWith_of rfl rfl rfl rfl rfl (by decide +kernel)) rfl (by decide +kernel) (by decide +kernel),
      by decide +kernel⟩, by decide +kernel, by decide +kernel⟩,
    ⟨⟨_, ⟨_, .inStep _ (endsWith_of rfl rfl rfl rfl rfl (by decide +kernel)) rfl (by decide +kernel) (by decide +kernel),
      by decide +kernel⟩, by decide +kernel⟩, by decide +kernel⟩,
    ⟨_, ⟨_, .realigned _ (endsWith_of rfl rfl rfl rfl rfl (by decide +kernel)) rfl (by decide +kernel), by decide +kernel⟩,
      rfl⟩⟩

/-- A DATA frame of station 2 in phase 2 of cycle 9, for station 0 in class 1. -/
def last2 (number : MsgNo) (index : Nat) (last : Bool) (payload : List Byte) : Gather :=
  heard (dataFrame 2 2 9 (tableDigest rows) ⟨0, 1, number, index, last, payload⟩ ⟨false, false⟩)

/-- The entry of station 2 in class 1, one boundary from the age limit. -/
def oldEntry (next : Nat) : Entry := ⟨2, 1, 1, false, next, List.replicate next full, 3⟩

/-- The station 0 at the end of a cycle with that entry. -/
def atLimit (next parcels free : Nat) : State := stored [oldEntry next] parcels free (active 0 2)

/-- A frame taken at a boundary in step, and one that realigns there. -/
theorem takes_boundary {f : Gather} {s : State} (h0 : s.fru.frame = some f) (hb : f.begun = true) (ho : f.own = false)
    (h1 : s.lif.tx = none) (h2 : s.lif.receiver = .idle) (h3 : s.ctr.table = rows) (h4 : s.ctr.digest = tableDigest rows)
    (h5 : s.ctr.aligned = true) (hc : checkFrame rows (tableDigest rows) f = .clean) (hp : phaseOf f.bytes = 2)
    (ht : Taken f s) : ∃ w, BoundaryEnd s .frameEnd w ∧ w.took = some f := by
  have he : EndsWith f .clean s := endsWith_of h0 hb ho h1 h2 (by rw [h3, h4]; exact hc)
  have hl : (phaseOf f.bytes).val + 1 = s.ctr.table.length := by rw [hp, h3]; rfl
  by_cases h : phaseOf f.bytes = s.ctr.p ∧ cycleOf f.bytes = s.ctr.c
  · exact ⟨_, ⟨_, .inStep f he h5 h.1 h.2, h.1 ▸ hl⟩, if_pos ht⟩
  · refine ⟨_, ⟨_, .realigned f he h5 ?_, hl⟩, if_pos ht⟩
    by_cases h' : phaseOf f.bytes = s.ctr.p
    · exact Or.inr fun e => h ⟨h', e⟩
    · exact Or.inl h'

/-- R117: a continuation, a last segment and a segment 0 for a key that has an entry, and a contradiction, at a boundary. -/
theorem meets_CycleBoundary_taken :
    ∀ x ∈ ([(last2 1 1 false full, atLimit 1 0 1), (last2 1 7 true [7], atLimit 7 16 1), (last2 1 0 true [7], atLimit 1 0 0),
        (last2 1 0 false full, atLimit 1 0 0), (last2 2 1 true [7], stopping 0x20 (atLimit 1 0 1)),
        (last2 1 1 false full, { atLimit 1 0 1 with ctr := (active 0 0).ctr })] : List (Gather × State)),
      let s := onLineNow x.1 x.2
      (∃ w, BoundaryEnd s .frameEnd w ∧ w.took = some x.1) ∧ ReassemblyWf s := by
  intro x hx
  simp only [List.mem_cons, List.not_mem_nil, or_false] at hx
  rcases hx with rfl | rfl | rfl | rfl | rfl | rfl
  all_goals exact ⟨takes_boundary rfl rfl rfl rfl rfl rfl rfl rfl (by decide +kernel) (by decide +kernel) (by decide +kernel),
    by decide +kernel, by decide +kernel, by decide +kernel⟩

/-- R117: the entry of a continuation at the age limit survives with age 1 where the frame is taken first; where the boundary is,
it leaves with AGED and the frame is an orphan. -/
theorem test_boundary_orders :
    let s := onLineNow (last2 1 1 false full) (atLimit 1 0 1)
    let w := cleanWork (last2 1 1 false full) none false s
    let first := phaseEndWith ⟨true, true, false, 0, 1, 2, 3⟩ w s
    let second := phaseEndWith ⟨true, true, false, 0, 2, 1, 3⟩ w s
    (first.rxu.table = [{ oldEntry 2 with age := 1 }] ∧ first.flt.flags = 0) ∧
      (second.rxu.table = [] ∧ second.flt.first = some ⟨.aged, some 2, some 1, 0, 10, []⟩) := by decide +kernel

/-- The frame ends that acquire alignment at a boundary: of a clean frame in LISTEN, COLD and SILENT, and of an own COLD frame of
a station that owns the last phase alone. -/
theorem meets_CycleBoundary_acquires :
    (∀ x : Station, x = .listen ∨ x = .cold ∨ x = .silent →
      ∃ w, BoundaryEnd (onLineNow fill2 (inState x 0)) .frameEnd w ∧ w.heard = some 2) ∧
      (let s := onLineNow ownHeard { inState .cold 2 with ctr := { (inState .cold 2).ctr with coldAlignPending := true } }
       ∃ w, BoundaryEnd s .frameEnd w ∧ w.stc.station = .active) :=
  ⟨by
      rintro x (rfl | rfl | rfl)
      all_goals exact ⟨_, ⟨_, .acquired _ (endsWith_of rfl rfl rfl rfl rfl (by decide +kernel)) rfl (by decide),
        by decide +kernel⟩, by decide +kernel⟩,
    _, ⟨_, .cold ownHeard 2 rfl rfl rfl ⟨rfl, Or.inl rfl⟩ rfl rfl (by decide +kernel) (by decide +kernel),
      by decide +kernel⟩, rfl⟩

/-- A boundary at the false start that a skip expiry waited for. -/
theorem meets_CycleBoundary_sample :
    let s := { receiving (.character false) (active 0 2) with ctr := { (active 0 2).ctr with skip := .awaitingSample } }
    BoundaryEnd s .falseStart (Ending.plain s) :=
  ⟨_, .sample rfl rfl rfl rfl rfl, by decide +kernel⟩

/-- Each clause of the tables of R137 and R138 has a record that meets it, at the boundary above. -/
theorem meets_PresenceEvaluation :
    (active 0 2).ctr.whole = false ∧ (active 0 2).pmn.peers[0].presence = .self ∧
      (active 0 2).pmn.peers[5].presence = .notScheduled ∧ (active 0 2).pmn.peers[1].presence = .unseen ∧
      (active 0 2).pmn.marks[1] = false ∧
      (∀ (x : Presence) (r : Fin 2) (h w : Bool) (y : PresencePolicy),
        let s := active 0 2
        let t := { s with ctr := { s.ctr with whole := w }, cfg := { s.cfg with presence := y },
                          pmn := { peers := s.pmn.peers.set 1 { s.pmn.peers[1] with presence := x, returnRun := r.val },
                                   marks := s.pmn.marks.set 1 h } }
        BoundaryEnd t .skipExpiry (Ending.plain t) ∧ (Ending.plain t).whole = w ∧ t.cfg.presence = y ∧
          t.pmn.peers[1].presence = x ∧ t.pmn.peers[1].returnRun = r.val ∧ t.pmn.marks[1] = h) := by
  refine ⟨by decide +kernel, by decide +kernel, by decide +kernel, by decide +kernel, by decide +kernel, ?_⟩
  intro x r h w y
  refine ⟨skips ⟨rfl, lastPhase_active.2⟩ rfl rfl rfl, rfl, rfl, ?_, ?_, ?_⟩
  all_goals simp

/-- An own phase follows at the station 2. -/
theorem offersOwn_of {s : State} (h1 : s.ctr = (active 2 1).ctr) (h2 : s.lif.tx = none)
    (h3 : s.lif.receiver ≠ .character false) (h4 : s.fru.frame = none) (h5 : s.stc.station = .active)
    (h6 : s.cfg.ownAddress = 2) : OffersOwn ⟨2, 3⟩ s :=
  ⟨by unfold MidCycle; rw [h1]; decide +kernel, by rw [h1]; decide +kernel, ⟨2, by rw [h1]; rfl⟩, h2, h3, h4, h5,
    by rw [h1]; rfl, by rw [h1]; decide +kernel, h6.symm⟩

theorem meets_OwnPhaseSendsFill :
    (OffersOwn ⟨2, 3⟩ (active 2 1) ∧ (active 2 1).lif.receiver = .idle ∧
      ∀ k : Cls, k ≤ (3 : Cls) → (active 2 1).txs.queues[k] = []) ∧
      (OffersOwn ⟨2, 3⟩ (receiving .brk (active 2 1)) ∧ (receiving .brk (active 2 1)).lif.receiver ≠ .idle) ∧
      (driving [1, 2] 0 false tabled).lif.tx = some ⟨[1, 2], 0, false⟩ ∧ tabled.lif.tx = none :=
  ⟨⟨offersOwn_of rfl rfl (fun h => nomatch h) rfl rfl rfl, by decide +kernel⟩,
    ⟨offersOwn_of rfl rfl (fun h => nomatch h) rfl rfl rfl, by decide +kernel⟩, rfl, rfl⟩

/-- The station 2 with one message in the queue of class 1, QUEUED, and this many completion records. -/
def waitingLetter (records : Nat) (x : Receiver) : State :=
  let s := withLetter (letter 4 1) (receiving x (active 2 1))
  { s with txs := { s.txs with completions := List.replicate records ⟨3, 0, .sent⟩ } }

/-- The contexts of that station. -/
theorem oneLetter_inv (s : State) (n : Nat) (x : Receiver) (h : s.txs = (waitingLetter n x).txs) : ContextInv s := by
  have hm : messages s.txs = [letter 4 1] := by rw [h]; rfl
  have hq : s.txs.queues = #v[[], [letter 4 1], [], []] := by rw [h]; rfl
  refine ⟨⟨?_, ?_, ?_, ?_⟩, ⟨[], ?_, ?_, ?_, ?_, ?_⟩, ?_, ?_⟩
  · unfold TxPoolWhole; rw [hm, h]; rfl
  · unfold QueuesBounded; rw [hq]; decide
  · unfold TagsDistinct; rw [hm]; decide
  · unfold RecordsPlaced; rw [hq]; decide
  · rw [h]; rfl
  · exact fun m hm' => nomatch hm'
  · exact List.Pairwise.nil
  · rw [hm]; decide
  · rw [h]; exact Nat.zero_le 3
  · intro tag index last h'; rw [h] at h'; cases h'
  · intro h'; rw [h] at h'; cases h'

/-- That station with the destination ABSENT under DISCARD. -/
def unreachableLetter (records : Nat) : State :=
  let s := waitingLetter records .idle
  { s with cfg := { s.cfg with unreachable := .discard }
           pmn := { s.pmn with peers := s.pmn.peers.set 1 { s.pmn.peers[1] with presence := .absent } } }

theorem unreachableLetter_unreachable (n : Nat) : Unreachable (letter 4 1) (unreachableLetter n) :=
  ⟨rfl, rfl, by decide, by simp [unreachableLetter, letter]⟩

theorem meets_OwnPhaseSendsSegment :
    (∀ (n : Fin 2) (x : Receiver), x = .idle ∨ x = .brk →
      let s := waitingLetter (15 + n.val) x
      ContextInv s ∧ OffersOwn ⟨2, 3⟩ s ∧ s.txs.queues[1].head? = some (letter 4 1) ∧
        (∀ j : Cls, j < (1 : Cls) → s.txs.queues[j] = []) ∧ s.cfg.unreachable = .keep ∧
        s.txs.completions.length = 15 + n.val ∧ lastNext (letter 4 1) = true ∧ s.lif.receiver = x) ∧
      ∀ n : Fin 2,
        let s := unreachableLetter (15 + n.val)
        ContextInv s ∧ OffersOwn ⟨2, 3⟩ s ∧ s.txs.queues[1].head? = some (letter 4 1) ∧ Unreachable (letter 4 1) s ∧
          s.txs.completions.length = 15 + n.val := by
  refine ⟨?_, ?_⟩
  · intro n x h
    refine ⟨oneLetter_inv _ (15 + n.val) x rfl, offersOwn_of rfl rfl ?_ rfl rfl rfl, rfl, ?_, rfl,
      List.length_replicate, by decide, rfl⟩
    · rcases h with rfl | rfl <;> exact fun e => nomatch e
    · exact fun j hj => (by decide : ∀ j : Cls, j < 1 → (#v[[], [letter 4 1], [], []] : Vector (List Message) 4)[j] = []) j hj
  · intro n
    exact ⟨oneLetter_inv _ (15 + n.val) .idle rfl, offersOwn_of rfl rfl (fun h => nomatch h) rfl rfl rfl, rfl,
      unreachableLetter_unreachable _, List.length_replicate⟩

/-- The station 0 in ACTIVE, whose own phase 0 begins after the phase 2 that ends. -/
theorem beginsOwn_boundary {i : Instr} {w : Ending} {s : State} (h : PhaseEnd s i 2 w) (h1 : s.ctr.table = rows)
    (h2 : w.stc.station = .active) (h3 : s.cfg.ownAddress = 0)
    (h4 : i ≠ .frameEnd → ∀ g, s.fru.frame = some g → g.begun = false) : BeginsOwn i 2 w ⟨0, 3⟩ s :=
  ⟨h, by rw [h1]; decide, by rw [h1]; decide, by unfold beginsAfter; rw [h1]; rfl, h3.symm, h2,
    Or.inr (by rw [h1]; decide), h4⟩

/-- The station 2 in ACTIVE with HOLD clear, whose own phase 2 begins after the phase 1 that ends. -/
theorem beginsOwn_mid {i : Instr} {n : Phase} {w : Ending} {s : State} (h : PhaseEnd s i n w) (hn : n = 1) (h1 : s.ctr.table = rows)
    (h2 : w.stc.station = .active) (h3 : s.cfg.ownAddress = 2) (h5 : w.hold = false)
    (h4 : i ≠ .frameEnd → ∀ g, s.fru.frame = some g → g.begun = false) : BeginsOwn i 1 w ⟨2, 3⟩ s := by
  subst hn
  exact ⟨h, by rw [h1]; decide, by rw [h1]; decide, by unfold beginsAfter; rw [h1]; rfl, h3.symm, h2, Or.inl h5, h4⟩

/-- The station with HOLD as given. -/
def holding (x : Bool) (s : State) : State := { s with ctr := { s.ctr with hold := x } }

/-- An own phase begins inside a cycle at the frame end of a clean frame that ends HOLD, of a frame with a fault, of a frame that
realigns and of one that takes a LISTEN station to ACTIVE. -/
theorem meets_OwnPhaseSendsFill_frames :
    (∃ w, BeginsOwn .frameEnd 1 w ⟨2, 3⟩ (onLineNow (heard fill1) (holding true (active 2 1)))) ∧
      (∃ w, BeginsOwn .frameEnd 1 w ⟨2, 3⟩ (onLineNow spoilt (active 2 1))) ∧
      (∃ w, BeginsOwn .frameEnd 1 w ⟨2, 3⟩ (onLineNow (heard fill1) (active 2 0))) ∧
      (∃ w, BeginsOwn .frameEnd 1 w ⟨2, 3⟩ (onLineNow (heard fill1) (receiving .brk (inState .listen 2)))) ∧
      (active 2 1).txs.inFlight = none ∧ ∀ k : Cls, (active 2 1).txs.queues[k] = [] :=
  ⟨⟨_, beginsOwn_mid (s := onLineNow (heard fill1) (holding true (active 2 1)))
      (.inStep (heard fill1) (endsWith_of rfl rfl rfl rfl rfl fill1_clean) rfl fill1_place.1 fill1_place.2)
      rfl rfl rfl rfl rfl (fun h => absurd rfl h)⟩,
    ⟨_, beginsOwn_mid (s := onLineNow spoilt (active 2 1))
      (.fault spoilt .crc .crc (endsWith_of rfl rfl rfl rfl rfl spoilt_crc) rfl rfl (fun e => nomatch e))
      rfl rfl rfl rfl rfl (fun h => absurd rfl h)⟩,
    ⟨_, beginsOwn_mid (s := onLineNow (heard fill1) (active 2 0))
      (.realigned (heard fill1) (endsWith_of rfl rfl rfl rfl rfl fill1_clean) rfl
        (Or.inl (by rw [fill1_place.1]; exact (by decide : (1 : Phase) ≠ 0))))
      fill1_place.1 rfl rfl rfl rfl (fun h => absurd rfl h)⟩,
    ⟨_, beginsOwn_mid (s := onLineNow (heard fill1) (receiving .brk (inState .listen 2)))
      (.acquired (heard fill1) ⟨rfl, rfl, rfl, ⟨rfl, Or.inr rfl⟩, fill1_clean⟩ rfl (Or.inl rfl))
      fill1_place.1 rfl rfl rfl rfl (fun h => absurd rfl h)⟩, rfl, by decide⟩

/-- An own phase begins at a cycle boundary by a skip expiry, by the false start it waited for, and by a frame end, with HOLD set
or clear. -/
theorem meets_OwnPhaseSendsFill_boundary (x : Bool) :
    (∃ w, BeginsOwn .skipExpiry 2 w ⟨0, 3⟩ (holding x (active 0 2))) ∧
      (let s := { receiving (.character false) (active 0 2) with ctr := { (active 0 2).ctr with skip := .awaitingSample } }
       ∃ w, BeginsOwn .falseStart 2 w ⟨0, 3⟩ s) ∧
      (∃ w, BeginsOwn .frameEnd 2 w ⟨0, 3⟩ (onLineNow fill2 (holding x (active 0 2)))) :=
  ⟨⟨_, beginsOwn_boundary (.skip 2 rfl rfl rfl (fun h => nomatch h)) rfl rfl rfl (fun _ _ h => nomatch h)⟩,
    ⟨_, beginsOwn_boundary (.sample rfl rfl rfl rfl rfl) rfl rfl rfl (fun _ _ h => nomatch h)⟩,
    _, beginsOwn_boundary (s := onLineNow fill2 (holding x (active 0 2)))
      (.inStep fill2 (endsWith_of rfl rfl rfl rfl rfl fill2_clean) rfl fill2_place.1 fill2_place.2)
      rfl rfl rfl (fun h => absurd rfl h)⟩

/-- A candidate at the frame end of a frame with a fault before the own phase, reachable and unreachable, with and without a
completion place. -/
theorem meets_OwnPhaseSendsSegment_frames (n : Fin 2) :
    (∀ x, x = .idle ∨ x = .brk →
      let s := onLineNow spoilt (waitingLetter (15 + n.val) x)
      ContextInv s ∧ (∃ w, BeginsOwn .frameEnd 1 w ⟨2, 3⟩ s) ∧ s.txs.queues[1].head? = some (letter 4 1) ∧
        ¬ Unreachable (letter 4 1) (s.withPmn s.pmn)) ∧
      let s := onLineNow spoilt (unreachableLetter (15 + n.val))
      ContextInv s ∧ (∃ w, BeginsOwn .frameEnd 1 w ⟨2, 3⟩ s) ∧ Unreachable (letter 4 1) (s.withPmn s.pmn) := by
  refine ⟨?_, ?_⟩
  · intro x h
    exact ⟨oneLetter_inv _ (15 + n.val) x rfl,
      ⟨_, beginsOwn_mid (.fault _ .crc .crc ⟨rfl, rfl, rfl, ⟨rfl, h⟩, spoilt_crc⟩ rfl rfl (fun e => nomatch e))
        rfl rfl rfl rfl rfl (fun h => absurd rfl h)⟩, rfl, fun h => nomatch h.1⟩
  · exact ⟨oneLetter_inv _ (15 + n.val) .idle rfl,
      ⟨_, beginsOwn_mid (.fault _ .crc .crc (endsWith_of rfl rfl rfl rfl rfl spoilt_crc) rfl rfl
        (fun e => nomatch e)) rfl rfl rfl rfl rfl (fun h => absurd rfl h)⟩,
      unreachableLetter_unreachable (15 + n.val)⟩

theorem meets_ColdStartWaitExpiry :
    (listening.stc.station = .listen ∧ listening.ctr.coldWait ≠ none ∧ listening.lif.receiver = .idle ∧
      (listening.ctr.table[(0 : Fin 64).val]?.map PhaseEntry.owner) = some listening.cfg.ownAddress ∧
      listening.ctr.table.length ≤ 64) ∧
      (let s := onLineNow (heard fill1) (receiving (.character true) listening)
       s.lif.receiver ≠ .idle ∧ s.fru.frame = some (heard fill1) ∧ (heard fill1).begun = true) ∧
      (let s := receiving .settling listening
       s.lif.receiver ≠ .idle ∧ s.fru.frame = none ∧ ∃ e ∈ s.ctr.table, e.owner = s.cfg.ownAddress) ∧
      (let g : Gather := ⟨[], true, false, false, false⟩
       let s := onLineNow g (receiving (.character false) listening)
       s.lif.receiver ≠ .idle ∧ s.fru.frame = some g ∧ g.begun = false) ∧
      tabled.stc.station ≠ .listen := by decide +kernel

/-! #### Transmit outcomes -/

/-- The message of `echoed`, its first segment sent when it has two. -/
def echoedLetter (last : Bool) : Message :=
  { letter 4 1 with length := 100, blocks := [full, full], state := .started 3 (if last then 1 else 0) }

/-- A station in ACTIVE with a frame of its message 4 echoed whole. -/
def echoed (last : Bool) : State :=
  { driving [1] 1 false (active 2 2) with
    txs := { State.reset.txs with queues := #v[[], [echoedLetter last], [], []], free := 62, current := some 4,
                                  inFlight := some (.data 4 (if last then 1 else 0) last) } }

/-- R58, R65, R102: a STOPPING SLIP in phase 0, and a STOPPING AGED at a boundary, return the context of a started message. -/
theorem test_stop_returns_contexts :
    (let s := { onLineNow (heard fill1) (stopping 0x200 (active 0 0)) with txs := { (echoed false).txs with inFlight := none } }
     let t := after .frameEnd s
     s.txs.current = some 4 ∧ t.stc.station = .silent ∧ t.stc.stationCause = true ∧ t.txs = contextsReturned s.txs) ∧
      (let s := { stopping 0x80 atBoundary with txs := { (echoed false).txs with inFlight := none } }
       let t := phaseEndWith ⟨true, true, false, 0, 1, 2, 3⟩ .nothing s
       t.stc.station = .silent ∧ t.txs.current = none) := by decide +kernel

/-- The contexts of that station. -/
theorem echoed_inv (last : Bool) : ContextInv (echoed last) := by
  cases last
  · refine ⟨⟨by unfold TxPoolWhole; decide +kernel, by unfold QueuesBounded; decide +kernel,
      by unfold TagsDistinct; decide +kernel, by unfold RecordsPlaced; decide +kernel⟩,
      ⟨[echoedLetter false], by decide +kernel⟩, ?_, by unfold FlightOnLine; decide +kernel⟩
    intro tag index last h
    cases h
    exact ⟨rfl, echoedLetter false, by decide +kernel⟩
  · refine ⟨⟨by unfold TxPoolWhole; decide +kernel, by unfold QueuesBounded; decide +kernel,
      by unfold TagsDistinct; decide +kernel, by unfold RecordsPlaced; decide +kernel⟩,
      ⟨[echoedLetter true], by decide +kernel⟩, ?_, by unfold FlightOnLine; decide +kernel⟩
    intro tag index last h
    cases h
    exact ⟨rfl, echoedLetter true, by decide +kernel⟩

theorem meets_EchoClean :
    ((driving [1] 0 false (active 0 0)).lif.tx = some ⟨[1], 0, false⟩ ∧ (0 : Nat) < ([1] : List Byte).length) ∧
      (let s := driving [1] 1 false (inState .cold 0)
       s.lif.tx = some ⟨[1], 1, false⟩ ∧ s.stc.pendingExit = none ∧ s.stc.softReset ≠ .waiting ∧ s.stc.station = .cold) ∧
      (let s := driving [1] 1 false (active 0 0)
       s.stc.station = .active ∧ s.txs.inFlight = none ∧ s.stc.pendingExit = none) ∧
      ((echoed false).lif.tx = some ⟨[1], 1, false⟩ ∧ (echoed false).stc.station = .active ∧ ContextInv (echoed false) ∧
        (echoed false).txs.inFlight = some (.data 4 0 false)) ∧
      (ContextInv (echoed true) ∧ (echoed true).txs.inFlight = some (.data 4 1 true) ∧
        (∃ j : Cls, echoedLetter true ∈ (echoed true).txs.queues[j]) ∧ (echoedLetter true).tag = 4) :=
  ⟨by decide +kernel, by decide +kernel, by decide +kernel, ⟨rfl, rfl, echoed_inv false, rfl⟩,
    echoed_inv true, rfl, ⟨1, by decide +kernel⟩, rfl⟩

/-- A frame echoed whole while a change of state, or a soft reset, waits for the cut. -/
theorem meets_EchoClean_waits :
    (∀ e ∈ [Exit.toSilent, .toConfig], ∀ s ∈ [driving [1] 1 false (active 0 0), driving [1] 1 false (inState .cold 0)],
      let t := exitWaits e s
      t.lif.tx = some ⟨[1], 1, false⟩ ∧ t.stc.pendingExit = some e ∧ t.stc.softReset ≠ .waiting ∧
        (t.stc.station = .cold ∨ t.stc.station = .active)) ∧
      (resetStage .waiting (driving [1] 1 false (active 0 0))).stc.softReset = .waiting := by decide +kernel

/-- A mismatch with these counts. -/
def mismatched (x : Station) (failures attempts : Nat) : State :=
  let s := driving [1] 0 true (if x = .active then active 0 0 else inState x 0)
  { s with lif := { s.lif with echoFailures := failures }, stc := { s.stc with coldAttempts := attempts } }

theorem meets_EchoFailure :
    ∀ s ∈ [mismatched .active 2 0, mismatched .active 3 0, mismatched .cold 0 6, mismatched .cold 0 7],
      s.lif.tx = some ⟨[1], 0, true⟩ ∧ s.stc.pendingExit = none ∧ s.stc.softReset ≠ .waiting ∧ ¬ Stops .echo s := by
  decide +kernel

/-- Failures with a change of state, or a soft reset, waiting: an ordinary one, and the fourth in a row, which is in SILENT. -/
theorem meets_EchoFailure_waits :
    (∀ e ∈ [Exit.toSilent, .toConfig], ∀ s ∈ [mismatched .active 2 0, mismatched .active 3 0, mismatched .cold 0 6],
      let t := exitWaits e s
      t.lif.tx = some ⟨[1], 0, true⟩ ∧ t.stc.pendingExit = some e ∧ t.stc.softReset ≠ .waiting ∧ ¬ Stops .echo t) ∧
      (after .echoFailure (withoutExit (exitWaits .toSilent (mismatched .active 3 0)))).stc.station = .silent ∧
      (after .echoFailure (withoutExit (exitWaits .toSilent (mismatched .active 2 0)))).stc.station ≠ .silent ∧
      (resetStage .waiting (mismatched .active 2 0)).stc.softReset = .waiting := by decide +kernel

theorem meets_EchoFailure_counts :
    (mismatched .active 2 0).lif.echoFailures ≤ 2 ∧ (mismatched .active 3 0).lif.echoFailures = 3 ∧
      (mismatched .cold 0 6).stc.coldAttempts ≤ 6 ∧ (mismatched .cold 0 7).stc.coldAttempts = 7 ∧
      (mismatched .cold 0 7).stc.station = .cold ∧ (mismatched .active 3 0).stc.station = .active := by decide +kernel

theorem meets_EchoFailureStops :
    ∀ s ∈ [stopping 0x100 (mismatched .active 3 0), stopping 0x100 (mismatched .cold 0 7)],
      s.lif.tx = some ⟨[1], 0, true⟩ ∧ s.stc.pendingExit = none ∧ s.stc.softReset ≠ .waiting ∧ Stops .echo s ∧
        (s.stc.station = .active ∨ s.stc.station = .cold) ∧
        (exitWaits .toConfig s).stc.pendingExit = some .toConfig ∧ (resetStage .waiting s).stc.softReset = .waiting := by
  decide +kernel

theorem meets_CutEndsExit :
    (let s := exitWaits .toSilent (driving [1, 2] 1 false (active 0 0))
     s.lif.tx = some ⟨[1, 2], 1, false⟩ ∧ s.stc.softReset ≠ .waiting ∧ s.stc.pendingExit = some .toSilent ∧
       s.stc.station = .active) ∧
      (exitWaits .toConfig (driving [1, 2] 1 false (active 0 0))).stc.pendingExit = some .toConfig ∧
      (resetStage .waiting (driving [1, 2] 1 false (active 0 0))).stc.softReset = .waiting ∧
      (driving [1, 2] 1 false (active 0 0)).stc.pendingExit = none ∧ (active 0 0).lif.tx = none := by decide +kernel

/-! #### Boundary rows, the counter, frames -/

theorem meets_BoundaryRows :
    (let s := onLineNow (heard (data1 2 0 true [7])) (stored [entry 2 1 0] 1 60 (active 0 1))
     s.ctr.aligned = true ∧ ReassemblyWf s) ∧
      (∀ e ∈ [entry 2 1 3], e.age + 1 = (active 0 1).cfg.ageLimit) ∧
      (∀ e ∈ [entry 2 1 2], e.age + 1 ≠ (active 0 1).cfg.ageLimit) ∧
      (let s := stopping 0x80 (active 0 1)
       Stops .aged s ∧ s.stc.station = .active ∧ s.lif.tx = none) ∧
      (let s := stopping 0x80 (driving [1, 2] 0 false (withEntries [entry 2 1 3] (active 0 1)))
       s.ctr.aligned = true ∧ Stops .aged s ∧ s.stc.station = .active ∧ s.lif.tx ≠ none ∧
         (after (.entryAged 1 1) s).stc.pendingExit = some .toSilent) ∧
      (let s := stopping 0x80 { active 0 1 with stc := { State.reset.stc with station := .silent } }
       s.ctr.aligned = true ∧ Stops .aged s ∧ s.stc.station = .silent) ∧
      (let s := { withParcels 1 (active 0 1) with rxu := { (withParcels 1 (active 0 1)).rxu with quiet := 1 } }
       s.ctr.aligned = true ∧ s.rxu.delivery ≠ [] ∧ s.rxu.quiet + 1 = s.cfg.quietLimit) ∧
      (active 0 1).rxu.quiet + 1 ≠ (active 0 1).cfg.quietLimit ∧ (active 0 1).cfg.reportMode = .onDemand ∧
      (let s := { active 0 1 with cfg := { Items.default with reportMode := .periodic, reportPeriod := 1 } }
       s.cfg.reportMode = .periodic ∧ s.flt.period + 1 = s.cfg.reportPeriod) ∧ tabled.ctr.aligned = false :=
  ⟨⟨rfl, oneEntry_wf rfl⟩, by decide +kernel⟩

theorem meets_CounterSaturates :
    (let f := { State.reset.flt with lineErrors := 65534 }
     f.lineErrors.toNat + 1 ≤ 65535 ∧ 65535 < f.lineErrors.toNat + 2) ∧
      ({ tabled with flt := { tabled.flt with liveOverflow := true } } : State).flt.liveOverflow = true ∧
      Awaited .counter (port tabled) :=
  ⟨by decide, rfl, rfl⟩

/-- A damaged FILL frame whose pattern is compared, and a frame with no pattern. -/
theorem meets_ShortFramesReadBack_pattern :
    PatternCompared { heard fill1 with chars := (heard fill1).chars.set 7 ⟨0, false⟩ } ∧ ¬ PatternCompared spoilt := by
  unfold PatternCompared CrcFault; decide +kernel

theorem meets_ShortFramesReadBack :
    FrameKind.fill ≠ .data ∧ FrameKind.cold ≠ .data ∧ (rows[(2 : Phase).val]?.map PhaseEntry.owner) = some 2 := by decide

theorem meets_DataFramesReadBack :
    (rows[(1 : Phase).val]?.map PhaseEntry.owner) = some 1 ∧
      (∀ g ∈ ([⟨31, 3, 3, 7, true, [5]⟩, ⟨0xFF, 0, 0, 6, false, full⟩] : List Segment),
        g.index ≤ 7 ∧ 1 ≤ g.payload.length ∧ g.payload.length ≤ 64 ∧ (g.last = false → g.payload.length = 64) ∧
          (g.index = 7 → g.last = true) ∧ (g.destination.toNat ≤ 31 ∨ g.destination = 0xFF)) := by decide +kernel

/-! #### States with every promise, from which a step goes on -/

theorem meets_ContextsKeptByStep :
    let s := { echoed true with pending := [.echoClean] }
    ContextInv s ∧ ∃ t, step s = .next t := by
  obtain ⟨⟨h1, h2, h3, h4⟩, h5, h6, h7⟩ := echoed_inv true
  exact ⟨⟨⟨h1, h2, h3, h4⟩, h5, h6, h7⟩, _, rfl⟩

theorem meets_RecordsKeptByStep :
    let s := { echoed true with pending := [.echoClean] }
    CompletionsBounded s ∧ FirstFaultFlagged s ∧ ∃ t, step s = .next t :=
  ⟨by unfold CompletionsBounded; decide +kernel, fun r h => (nomatch (h : none = some r)), _, rfl⟩

theorem meets_ReceiveKeptByStep :
    let s := { withEntries [entry 2 1 3] (active 0 1) with pending := [.entryAged 1 1] }
    ReceiveInv s ∧ ∃ t, step s = .next t :=
  ⟨⟨by unfold RxPoolWhole; decide +kernel, ⟨by decide +kernel, by decide +kernel, by decide +kernel⟩,
    by decide +kernel, by decide +kernel⟩, _, rfl⟩

theorem meets_StationKeptByStep :
    let s := { active 0 1 with pending := [.skipExpiry] }
    StationInv s ∧ PortInv s ∧ ∃ t, step s = .next t :=
  ⟨by constructor <;> decide +kernel, by constructor <;> decide +kernel, _, rfl⟩

/-- The port in the middle of a TABLE of 64 entries, one byte before its taking. -/
theorem meets_StationKeptByStep_table :
    let s := { tabled with pending := [.portByteCompleted 3],
                           lpt := { State.reset.lpt with state := .arguments, command := some .table,
                                                         args := 64 :: List.replicate 63 3, byteCount := 65 } }
    PortInv s ∧ ((after (.portByteCompleted 3) s).ctr.table.length = 64) ∧ ∃ t, step s = .next t :=
  ⟨by constructor <;> decide +kernel, by decide +kernel, _, rfl⟩

theorem meets_CountersKeptByStep :
    let s := { atBoundary with pending := [.skipExpiry] }
    CountersInv s ∧ ∃ t, step s = .next t :=
  ⟨by constructor <;> decide +kernel, _, rfl⟩

theorem meets_LinesKeptByStep :
    let s := { withParcels 1 (active 0 1) with
      lpt := { State.reset.lpt with dlvReq := true }, pending := [.entryAged 1 1] }
    LinesInv s ∧ ∃ t, step s = .next t :=
  ⟨by constructor <;> decide +kernel, _, rfl⟩

end Sys2Proof.Tests
end

section
/-! SUPPORT. The reports of a phase end: every task of a phase end is made of changes to the Receive Unit, the Peer Monitor and
DLV_REQ, and of fault occurrences. -/

namespace Sys2Proof.Machine

/-! ### What the tasks of a phase end are made of -/

/-- A predicate that stands over every building block of a task: an occurrence, another Receive Unit, another Peer Monitor, and
a drive of DLV_REQ. -/
structure StandsOverTasks (P : State → Prop) : Prop where
  report : ∀ o s, P s → P (raise o s)
  receive : ∀ x s, P s → P (s.withRxu x)
  peers : ∀ x s, P s → P (s.withPmn x)
  line : ∀ s, P s → P (driveDlv s)

section

variable {P : State → Prop} (hP : StandsOverTasks P) {s : State}
include hP

theorem StandsOverTasks.takeSingle (f : TakenFrame) (h : P s) : P (takeSingle f s) := by
  unfold Machine.takeSingle
  split
  · exact hP.line _ (hP.receive _ _ h)
  · exact hP.report _ _ h

theorem StandsOverTasks.takeFirst (f : TakenFrame) (h : P s) : P (takeFirst f s) := by
  unfold Machine.takeFirst
  split
  · exact hP.receive _ _ h
  · exact hP.report _ _ h

theorem StandsOverTasks.replaceEntry (f : TakenFrame) (h : P s) : P (replaceEntry f s) := by
  unfold Machine.replaceEntry
  split
  · exact h
  · exact hP.report _ _ (hP.receive _ _ h)

theorem StandsOverTasks.takeContinuation (f : TakenFrame) (h : P s) : P (takeContinuation f s) := by
  unfold Machine.takeContinuation takeLast takeMiddle
  split
  · exact h
  · split_ifs
    · exact hP.line _ (hP.receive _ _ h)
    · exact hP.report _ _ (hP.receive _ _ h)
    · exact hP.receive _ _ h
    · exact hP.report _ _ (hP.receive _ _ h)
    · exact hP.report _ _ (hP.receive _ _ h)

theorem StandsOverTasks.takeFrame (f : TakenFrame) (h : P s) : P (takeFrame f s) := by
  unfold Machine.takeFrame
  split_ifs
  · exact hP.takeSingle f (hP.replaceEntry f h)
  · exact hP.takeFirst f (hP.replaceEntry f h)
  · exact hP.takeContinuation f h

theorem StandsOverTasks.ageOut (which : Entry → Bool) (p : Phase) (c : Cycle) (h : P s) : P (ageOut which p c s) :=
  raiseAll_induct hP.report _ _ (hP.receive _ _ h)

theorem StandsOverTasks.rxuBoundary (p : Phase) (c : Cycle) (h : P s) : P (rxuBoundary p c s) :=
  hP.ageOut _ p c (hP.line _ (hP.receive _ _ h))

theorem StandsOverTasks.peerLosses (p : Phase) (c : Cycle) (as : List Addr) (h : P s) :
    P (as.foldl (peerLoss p c) s) := by
  induction as generalizing s with
  | nil => exact h
  | cons a as ih => exact ih (hP.ageOut _ p c h)

theorem StandsOverTasks.pmnBoundary (whole : Bool) (p : Phase) (c : Cycle) (h : P s) : P (pmnBoundary whole p c s) :=
  hP.peerLosses p c _ (hP.peers _ _ h)

theorem StandsOverTasks.runTask (w : Work) (whole : Bool) (p : Phase) (c : Cycle) (t : Task) (h : P s) :
    P (runTask w whole p c t s) := by
  cases t with
  | fault => exact raiseAll_induct hP.report _ _ h
  | frame =>
    simp only [Machine.runTask]
    split
    · exact hP.takeFrame _ h
    · exact h
  | aging => exact hP.rxuBoundary p c h
  | presence => exact hP.pmnBoundary whole p c h

end

/-! ### The station over the tasks -/

/-- No occurrence leads into CONFIG, or out of it. -/
theorem raise_station_config (o : Occurrence) (s : State) :
    (raise o s).stc.station = .config ↔ s.stc.station = .config := by
  rcases raise_stc s o with h | ⟨-, -, -, h⟩ | ⟨-, hs, -, h⟩
  · rw [h]
  · rw [h]
  · rw [h]
    constructor
    · intro hc; cases hc
    · intro hc; rw [hc] at hs; cases hs

theorem outsideConfig_standsOverTasks : StandsOverTasks fun s => s.stc.station ≠ .config where
  report o s h := mt (raise_station_config o s).mp h
  receive _ _ h := h
  peers _ _ h := h
  line _ h := h

/-! ### The start of a phase -/

@[simp] theorem sendRequest_echoFailures (r : FrameRequest) (s : State) :
    (sendRequest r s).lif.echoFailures = s.lif.echoFailures := by
  unfold sendRequest
  split
  · cases r with
    | fill => rfl
    | data tag index last => simp only; split <;> rfl
  · rfl

/-- A phase start leaves the echo failure count as it is. -/
@[simp] theorem phaseStart_echoFailures (s : State) : (phaseStart s).lif.echoFailures = s.lif.echoFailures := by
  unfold phaseStart
  simp only
  split
  · split <;> simp [ownPhaseStart]
  · rfl

/-- A phase start starts the skip timer, and nothing else at the Cycle Tracker (R28). -/
@[simp] theorem phaseStart_ctr (s : State) : (phaseStart s).ctr = { s.ctr with skip := .running Config.skipTime } := by
  unfold phaseStart
  simp only
  split
  · split <;> simp
  · rfl

/-! ### The end of a phase -/

/-- What stands over each task stands over a run of them. -/
theorem runTasks_induct {P : State → Prop} {w : Work} {whole : Bool} {p : Phase} {c : Cycle}
    (htask : ∀ t s, P s → P (runTask w whole p c t s)) (ts : List Task) {s : State} (h : P s) :
    P (runTasks w whole p c ts s) := by
  unfold runTasks
  induction ts generalizing s with
  | nil => exact h
  | cons t ts ih => exact ih (htask t s h)

/-- What stands over the tasks, the heard credit and the phase start stands over a phase end, after its advance and counting. -/
theorem phaseEndWith_induct {P : State → Prop} {w : Work} (hpeers : ∀ x s, P s → P (s.withPmn x))
    (htask : ∀ whole p c t s, P s → P (runTask w whole p c t s)) (hstart : ∀ s, P s → P (phaseStart s))
    (o : Config.FrameEndOrder) {s : State} (h : P (countAtEnd o (endsCycle s) w.errors (s.withCtr (advanced s)))) :
    P (phaseEndWith o w s) := by
  have hcredit : ∀ u, P u → P (creditHeard w u) := by
    intro u hu
    unfold creditHeard
    split
    · exact hpeers _ _ hu
    · exact hu
  have hif : ∀ (b : Bool) (u v : State), P u → P v → P (if b then u else v) := by
    intro b u v hu hv; cases b <;> assumption
  unfold phaseEndWith
  simp only
  have h2 := hif o.creditFirst _ _ (hcredit _ h) h
  have h3 := runTasks_induct (htask s.ctr.whole (nextPhase s) (nextCycle s)) (tasksBefore o (endsCycle s)) h2
  have h4 := hif s.ctr.aligned _ _ (hstart _ h3) h3
  have h5 := hif (endsCycle s && o.selectFirst) _ _ (htask s.ctr.whole (nextPhase s) (nextCycle s) .presence _ h4) h4
  exact hif o.creditFirst _ _ h5 (hcredit _ h5)

end Sys2Proof.Machine
end

section
/-! SUPPORT. The ranges of the counters over every operation. -/

namespace Sys2Proof.Machine

/-! ### Counters that stand -/

/-- A state that agrees in the counters, the items and the Receive Unit, and is in CONFIG only where the other is, keeps the
ranges. -/
theorem CountersInv.congr {s t : State} (h : CountersInv s) (echo : t.lif.echoFailures = s.lif.echoFailures)
    (cold : t.stc.coldAttempts = s.stc.coldAttempts) (period : t.flt.period = s.flt.period) (rxu : t.rxu = s.rxu)
    (cfg : t.cfg = s.cfg) (station : t.stc.station = .config → s.stc.station = .config) : CountersInv t where
  echo := echo ▸ h.echo
  cold := cold ▸ h.cold
  quiet := by rw [rxu, cfg]; exact h.quiet
  ages := by rw [rxu, cfg]; exact h.ages
  period := by rw [period, cfg]; exact h.period
  ageLimit := cfg ▸ h.ageLimit
  configEmpty hc := by rw [rxu]; exact h.configEmpty (station hc)

/-- A Receive Unit with its quiet counter and its ages in range keeps the ranges; outside CONFIG it may hold entries. -/
theorem CountersInv.withRxu {s : State} (h : CountersInv s) (x : Rxu) (quiet : x.quiet ≤ s.cfg.quietLimit)
    (ages : ∀ e ∈ x.table, e.age < s.cfg.ageLimit) (empty : s.stc.station = .config → x.table = []) :
    CountersInv (s.withRxu x) :=
  { h with quiet := quiet, ages := ages, configEmpty := empty }

section

variable {s : State} (h : CountersInv s)
include h

theorem CountersInv.withFru (x : Fru) : CountersInv (s.withFru x) := h.congr rfl rfl rfl rfl rfl id
theorem CountersInv.withCtr (x : Ctr) : CountersInv (s.withCtr x) := h.congr rfl rfl rfl rfl rfl id
theorem CountersInv.withTxs (x : Txs) : CountersInv (s.withTxs x) := h.congr rfl rfl rfl rfl rfl id
theorem CountersInv.withPmn (x : Pmn) : CountersInv (s.withPmn x) := h.congr rfl rfl rfl rfl rfl id
theorem CountersInv.withLpt (x : Lpt) : CountersInv (s.withLpt x) := h.congr rfl rfl rfl rfl rfl id
theorem CountersInv.withPending (x : List Instr) : CountersInv (s.withPending x) := h.congr rfl rfl rfl rfl rfl id
theorem CountersInv.withFreeCount (x : Nat) : CountersInv (s.withFreeCount x) := h.congr rfl rfl rfl rfl rfl id

theorem CountersInv.withLif (x : Lif) (same : x.echoFailures = s.lif.echoFailures := by rfl) :
    CountersInv (s.withLif x) := h.congr same rfl rfl rfl rfl id

theorem CountersInv.withSegBuf (b : List Byte) : CountersInv (s.withRxu { s.rxu with segBuf := b }) :=
  { h with }

/-- The echo failure count may change within its range (R10). -/
theorem CountersInv.withEcho {x : Lif} (echo : x.echoFailures ≤ 3) : CountersInv (s.withLif x) :=
  { h with echo := echo }

/-- The Station Controller may change while its cold attempts stay in range (R55) and it does not enter CONFIG. -/
theorem CountersInv.withStc (x : Stc) (cold : x.coldAttempts ≤ 7) (station : x.station = .config → s.stc.station = .config) :
    CountersInv (s.withStc x) :=
  { h with cold := cold, configEmpty := fun hc => h.configEmpty (station hc) }

end

/-! ### The Fault Unit -/

@[simp] theorem recorded_period (masks : KindSet) (o : FirstFault) (f : Flt) : (recorded masks o f).period = f.period := by
  unfold recorded; split <;> rfl

@[simp] theorem countErrors_period (n : Nat) (f : Flt) : (countErrors n f).period = f.period := by
  unfold countErrors; split <;> rfl

/-- A cycle boundary keeps the period counter below N (R159). -/
theorem periodBoundary_lt {cfg : Items} {f : Flt} (h : f.period < cfg.reportPeriod) :
    (periodBoundary cfg f).period < cfg.reportPeriod := by
  unfold periodBoundary
  split
  · exact h
  · split
    · exact Nat.zero_lt_of_lt h
    · show f.period + 1 < cfg.reportPeriod; omega

theorem CountersInv.withFlt {s : State} (h : CountersInv s) (x : Flt) (period : x.period < s.cfg.reportPeriod) :
    CountersInv (s.withFlt x) :=
  { h with period := period }

theorem CountersInv.countAtEnd {s : State} (h : CountersInv s) (o : Config.FrameEndOrder) (boundary : Bool) (n : Nat) :
    CountersInv (countAtEnd o boundary n s) := by
  unfold Machine.countAtEnd
  split_ifs
  · exact h.withFlt _ (periodBoundary_lt (by simpa using h.period))
  · exact h.withFlt _ (by simpa using periodBoundary_lt h.period)
  · exact h.withFlt _ (by simpa using h.period)

/-! ### The station -/

theorem CountersInv.enterListen {s : State} (h : CountersInv s) : CountersInv (enterListen s) :=
  h.congr rfl rfl rfl rfl rfl nofun

theorem CountersInv.enterSilent {s : State} (h : CountersInv s) : CountersInv (enterSilent s) :=
  h.congr rfl rfl rfl rfl rfl nofun

theorem CountersInv.enterActive {s : State} (h : CountersInv s) : CountersInv (enterActive s) :=
  { h with echo := Nat.zero_le 3, cold := Nat.zero_le 7, configEmpty := nofun }

theorem CountersInv.enterConfig {s : State} (h : CountersInv s) : CountersInv (enterConfig s) :=
  { h with ages := nofun, configEmpty := fun _ => rfl }

theorem CountersInv.raise {s : State} (h : CountersInv s) (o : Occurrence) : CountersInv (raise o s) := by
  refine h.congr (by simp) ?_ (by simp [raise_flt]) (by simp) (by simp) (raise_station_config o s).mp
  rcases raise_stc s o with e | ⟨-, -, -, e⟩ | ⟨-, -, -, e⟩ <;> rw [e]
  rfl

theorem CountersInv.softReset {s : State} (h : CountersInv s) : CountersInv (softResetState s) where
  echo := Nat.zero_le 3
  cold := Nat.zero_le 7
  quiet := Nat.zero_le _
  ages := nofun
  period := Nat.zero_lt_of_lt h.period
  ageLimit := h.ageLimit
  configEmpty _ := rfl

theorem CountersInv.finishExit {s : State} (h : CountersInv s) : CountersInv (finishExit s) := by
  unfold Machine.finishExit
  split
  · exact h.softReset
  · split
    · exact h
    · exact h.enterConfig
    · split
      · exact h.enterSilent
      · exact h.withStc _ h.cold id

/-! ### The Receive Unit -/

theorem mem_discardEntries {which : Entry → Bool} {x : Rxu} {e : Entry} (h : e ∈ (discardEntries which x).table) :
    e ∈ x.table ∧ which e = false := by
  simpa [discardEntries] using h

theorem CountersInv.discard {s : State} (h : CountersInv s) (which : Entry → Bool) :
    CountersInv (s.withRxu (discardEntries which s.rxu)) :=
  h.withRxu _ h.quiet (fun e he => h.ages e (mem_discardEntries he).1)
    (fun hc => by simp [discardEntries, h.configEmpty hc])

theorem CountersInv.driveDlv {s : State} (h : CountersInv s) : CountersInv (driveDlv s) :=
  h.withLpt _

theorem CountersInv.ageOut {s : State} (h : CountersInv s) (which : Entry → Bool) (p : Phase) (c : Cycle) :
    CountersInv (ageOut which p c s) :=
  raiseAll_induct (fun o _ hs => hs.raise o) _ _ (h.discard which)

/-- A quiet counter within Q stays within it at a boundary (R124). -/
theorem quietBoundary_le {limit : Nat} {x : Rxu} (h : x.quiet ≤ limit) : (quietBoundary limit x).quiet ≤ limit := by
  unfold quietBoundary
  split_ifs with _ hq
  · exact h
  · exact hq
  · exact h

@[simp] theorem quietBoundary_table (limit : Nat) (x : Rxu) : (quietBoundary limit x).table = x.table := by
  unfold quietBoundary; split_ifs <;> rfl

theorem mem_raiseAges {x : Rxu} {e : Entry} (h : e ∈ (raiseAges x).table) : ∃ y ∈ x.table, e.age = y.age + 1 := by
  obtain ⟨y, hy, rfl⟩ := List.mem_map.mp h
  exact ⟨y, hy, rfl⟩

/-- At a boundary every age is raised by 1, and the entries that reach the limit leave (R116). -/
theorem CountersInv.rxuBoundary {s : State} (h : CountersInv s) (p : Phase) (c : Cycle) :
    CountersInv (rxuBoundary p c s) := by
  have hkept : CountersInv (s.withRxu (discardEntries (fun e => e.age == s.cfg.ageLimit)
      (raiseAges (quietBoundary s.cfg.quietLimit s.rxu)))) := by
    refine h.withRxu _ (quietBoundary_le h.quiet) ?_ ?_
    · intro e he
      obtain ⟨hmem, hage⟩ := mem_discardEntries he
      obtain ⟨y, hy, hey⟩ := mem_raiseAges hmem
      have hlt := h.ages y (by simpa using hy)
      have hne : e.age ≠ s.cfg.ageLimit := by simpa using hage
      omega
    · intro hc
      simp [discardEntries, raiseAges, h.configEmpty hc]
  exact raiseAll_induct (fun o _ hs => hs.raise o) _ _ (hkept.congr rfl rfl rfl rfl rfl id)

theorem CountersInv.pmnBoundary {s : State} (h : CountersInv s) (whole : Bool) (p : Phase) (c : Cycle) :
    CountersInv (pmnBoundary whole p c s) := by
  have hfold : ∀ (as : List Addr) (u : State), CountersInv u → CountersInv (as.foldl (peerLoss p c) u) := by
    intro as
    induction as with
    | nil => exact fun _ hu => hu
    | cons a as ih => exact fun u hu => ih _ (hu.ageOut _ p c)
  exact hfold _ _ (h.withPmn _)

/-! ### A taken frame -/

/-- A record appended to the delivery queue starts the quiet counter again (R124). -/
theorem CountersInv.deliver {s : State} (h : CountersInv s) (d : Delivery) {x : Rxu}
    (table : ∀ e ∈ x.table, e ∈ s.rxu.table) : CountersInv (Machine.driveDlv (s.withRxu (appendDelivery d x))) := by
  refine CountersInv.driveDlv (h.withRxu _ (Nat.zero_le _) (fun e he => h.ages e (table e he)) fun hc => ?_)
  exact List.eq_nil_iff_forall_not_mem.mpr fun e he => by simpa [h.configEmpty hc] using table e he

/-- An entry with age 0 put into the table, outside CONFIG. -/
theorem CountersInv.insert {s : State} (h : CountersInv s) (hs : s.stc.station ≠ .config) {e : Entry} (age : e.age = 0)
    {x : Rxu} (quiet : x.quiet = s.rxu.quiet) {table : List Entry} (rest : ∀ y ∈ table, y ∈ s.rxu.table)
    (made : x.table = insertEntry e table) : CountersInv (s.withRxu x) := by
  refine h.withRxu _ (quiet ▸ h.quiet) ?_ fun hc => absurd hc hs
  intro y hy
  rw [made] at hy
  rcases List.mem_cons.mp ((insertEntry_perm e table).mem_iff.mp hy) with rfl | hy
  · have := h.ageLimit; omega
  · exact h.ages y (rest y hy)

theorem mem_removeEntry {sender : Addr} {cls : Cls} {x : Rxu} {e : Entry} (h : e ∈ (removeEntry sender cls x).table) :
    e ∈ x.table := (List.mem_filter.mp h).1

section

variable {s : State} (h : CountersInv s) (hs : s.stc.station ≠ .config) (f : TakenFrame)
include h

theorem CountersInv.sequence : CountersInv (Machine.raise (frameOccurrence .sequence f)
    (s.withRxu (discardEntry f.sender f.cls s.rxu))) := (h.discard _).raise _

theorem CountersInv.noSpace : CountersInv (Machine.raise (frameOccurrence .noSpace f)
    (s.withRxu (discardEntry f.sender f.cls s.rxu))) := (h.discard _).raise _

theorem CountersInv.takeSingle : CountersInv (takeSingle f s) := by
  unfold Machine.takeSingle
  split
  · exact h.deliver _ fun _ he => he
  · exact h.raise _

theorem CountersInv.takeLast (e : Entry) : CountersInv (takeLast f e s) := by
  unfold Machine.takeLast
  split
  · exact h.deliver _ fun _ he => mem_removeEntry he
  · exact h.noSpace f

theorem CountersInv.replaceEntry : CountersInv (replaceEntry f s) := by
  unfold Machine.replaceEntry
  split
  · exact h
  · exact h.sequence f

include hs

theorem CountersInv.takeFirst : CountersInv (takeFirst f s) := by
  unfold Machine.takeFirst
  split
  · exact h.insert hs rfl rfl (fun _ he => he) rfl
  · exact h.raise _

theorem CountersInv.takeMiddle (e : Entry) : CountersInv (takeMiddle f e s) := by
  unfold Machine.takeMiddle
  split
  · exact h.insert hs rfl rfl (fun _ he => mem_removeEntry he) rfl
  · exact h.noSpace f

theorem CountersInv.takeContinuation : CountersInv (takeContinuation f s) := by
  unfold Machine.takeContinuation
  split
  · exact h
  · split_ifs
    · exact h.takeLast f _
    · exact h.takeMiddle hs f _
    · exact h.sequence f

theorem CountersInv.takeFrame : CountersInv (takeFrame f s) := by
  unfold Machine.takeFrame
  split_ifs
  · exact (h.replaceEntry f).takeSingle f
  · exact (h.replaceEntry f).takeFirst (outsideConfig_standsOverTasks.replaceEntry f hs) f
  · exact h.takeContinuation hs f

end

/-! ### Phase ends and frame ends -/

theorem CountersInv.phaseStart {s : State} (h : CountersInv s) : CountersInv (phaseStart s) :=
  h.congr (by simp) (by simp) (by simp) (by simp) (by simp) (by simp)

/-- A phase end keeps the ranges, where a frame is taken outside CONFIG alone (R106). -/
theorem CountersInv.phaseEndWith {s : State} (h : CountersInv s) (o : Config.FrameEndOrder) {w : Work}
    (taken : w.taken ≠ none → s.stc.station ≠ .config) : CountersInv (phaseEndWith o w s) := by
  suffices hP : CountersInv (Machine.phaseEndWith o w s) ∧
      (w.taken ≠ none → (Machine.phaseEndWith o w s).stc.station ≠ .config) from hP.1
  refine phaseEndWith_induct (P := fun u => CountersInv u ∧ (w.taken ≠ none → u.stc.station ≠ .config)) ?_ ?_ ?_ o ?_
  · rintro x u ⟨hu, hc⟩
    exact ⟨hu.withPmn x, hc⟩
  · rintro whole p c t u ⟨hu, hc⟩
    refine ⟨?_, fun ht => outsideConfig_standsOverTasks.runTask w whole p c t (hc ht)⟩
    cases t with
    | fault => exact raiseAll_induct (fun o _ hs => hs.raise o) _ _ hu
    | frame =>
      cases hf : w.taken with
      | none => simpa only [runTask, hf] using hu
      | some f => simpa only [runTask, hf] using hu.takeFrame (hc (by simp [hf])) f
    | aging => exact hu.rxuBoundary p c
    | presence => exact hu.pmnBoundary whole p c
  · rintro u ⟨hu, hc⟩
    exact ⟨hu.phaseStart, fun ht => by simpa using hc ht⟩
  · exact ⟨(h.withCtr _).countAtEnd o _ _, fun ht => by simpa using taken ht⟩

theorem CountersInv.useOrder {s : State} (h : CountersInv s) (w : Work) : CountersInv (useOrder w s) :=
  h.congr (by simp) (by simp) (by simp) (by simp) (by simp) (by simp)

theorem CountersInv.phaseEnd {s : State} (h : CountersInv s) {w : Work} (taken : w.taken = none) :
    CountersInv (phaseEnd w s) :=
  (h.useOrder w).phaseEndWith _ fun ht => absurd taken ht

theorem CountersInv.skipExpire {s : State} (h : CountersInv s) : CountersInv (skipExpire s) :=
  CountersInv.phaseEnd (w := .nothing) (h.withFru _) rfl

theorem CountersInv.dropFrame {s : State} (h : CountersInv s) : CountersInv (dropFrame s) :=
  (h.withFru _).withSegBuf _

theorem CountersInv.trackClean {s : State} (h : CountersInv s) (b : List Byte) : CountersInv (trackClean b s) := by
  unfold Machine.trackClean
  simp only
  split_ifs
  · exact h.withCtr _
  · exact (h.withCtr _).enterActive
  · exact h.withCtr _
  · exact h.withCtr _

/-- A clean frame leads into CONFIG no station that is not there. -/
theorem trackClean_station_config {s : State} {b : List Byte} (h : s.stc.station ≠ .config) :
    (trackClean b s).stc.station ≠ .config := by
  unfold trackClean
  simp only
  split_ifs
  · exact h
  · exact nofun
  · exact h
  · exact h

theorem CountersInv.notePeer {s : State} (h : CountersInv s) (b : List Byte) (e : Option Nat) :
    CountersInv (notePeer b e s) :=
  h.congr (by simp) (by simp) (by simp) (by simp) (by simp) (by simp)

theorem CountersInv.noteFault {s : State} (h : CountersInv s) (b : List Byte) (x : FrameOutcome) :
    CountersInv (noteFault b x s) :=
  h.congr (by simp) (by simp) (by simp) (by simp) (by simp) (by simp)

/-- The Receive Unit takes a frame in ACTIVE or SILENT alone (R106). -/
theorem station_of_takes {f : Gather} {s : State} (h : takes f s = true) : s.stc.station ≠ .config := by
  intro hc
  simp [takes, hc] at h

theorem takes_of_cleanWork {f : Gather} {e : Option Nat} {corrected : Bool} {s : State}
    (h : (cleanWork f e corrected s).taken ≠ none) : takes f s = true := by
  by_contra hn
  simp [cleanWork, hn] at h

theorem CountersInv.cleanFrameEnd {s : State} (h : CountersInv s) (f : Gather) : CountersInv (cleanFrameEnd f s) := by
  refine CountersInv.phaseEndWith (((h.dropFrame.trackClean _).notePeer _ _).useOrder _) _ fun ht => ?_
  have hs := station_of_takes (takes_of_cleanWork ht)
  simpa using trackClean_station_config (s := Machine.dropFrame s) hs

theorem CountersInv.faultFrameEnd {s : State} (h : CountersInv s) (f : Gather) (x : FrameOutcome) (k : FaultKind) :
    CountersInv (faultFrameEnd f x k s) := by
  have hend := CountersInv.phaseEnd (h.dropFrame.noteFault f.bytes x) (w := faultWork f x k s) rfl
  unfold Machine.faultFrameEnd
  simp only
  split
  · exact hend.enterListen
  · exact hend

theorem CountersInv.ownFrameEnd {s : State} (h : CountersInv s) : CountersInv (ownFrameEnd s) := by
  unfold Machine.ownFrameEnd
  split_ifs
  · exact (h.withCtr _).enterActive.phaseEnd rfl
  · exact h.phaseEnd rfl
  · exact h

theorem CountersInv.endFrame {s : State} (h : CountersInv s) : CountersInv (endFrame s) := by
  unfold Machine.endFrame
  split
  · exact h
  · split_ifs
    · exact h.withFru _
    · exact h.dropFrame.ownFrameEnd
    · simp only
      split
      · exact h.cleanFrameEnd _
      · exact h.faultFrameEnd _ _ _

end Sys2Proof.Machine
end

section
/-! SUPPORT. The ranges of the counters over every transaction, every event and every command, and so over every step. -/

namespace Sys2Proof.Machine

/-! ### A free value used -/

@[simp] theorem useUnheard_lif (s : State) : (useUnheard s).lif = s.lif := by
  unfold useUnheard; split <;> rfl

/-! ### Transactions of the local port -/

/-- A SETUP in range carries a report period and an age limit of at least 1 (R171). -/
theorem setupInRange_limits {args : List Byte} (h : setupInRange args = true) : 1 ≤ arg args 19 ∧ 1 ≤ arg args 20 := by
  simp only [setupInRange, Bool.and_eq_true, decide_eq_true_eq] at h
  omega

section

variable {s : State} (h : CountersInv s)
include h

theorem CountersInv.driveSub : CountersInv (driveSub s) := h.withLpt _

/-- New items in CONFIG, where no entry stands: the counters that SETUP brings down are in range (R172). -/
theorem CountersInv.applySetup {items : Items} (hc : s.stc.station = .config) (period : 1 ≤ items.reportPeriod)
    (ageLimit : 1 ≤ items.ageLimit) : CountersInv (applySetup items s) where
  echo := h.echo
  cold := h.cold
  quiet := Nat.min_le_right _ _
  ages e he := by
    have : e ∈ s.rxu.table := he
    simp [h.configEmpty hc] at this
  period := period
  ageLimit := ageLimit
  configEmpty := h.configEmpty

theorem CountersInv.applyJoin : CountersInv (applyJoin s) :=
  CountersInv.enterListen { h with cold := Nat.zero_le 7 }

theorem CountersInv.fetched {d : Delivery} {rest : List Delivery} :
    CountersInv (Machine.driveDlv (s.withRxu (fetched d rest s.rxu))) :=
  CountersInv.driveDlv (h.withRxu _ (Nat.zero_le _) h.ages h.configEmpty)

/-- The owning block's decision keeps the ranges, refusal or not. -/
theorem CountersInv.decideCommand (c : Command) : CountersInv (decideCommand c s).state := by
  cases c with
  | setup =>
    simp only [Machine.decideCommand, decideSetup]
    split_ifs with hc hr
    · exact h
    · exact h.applySetup (not_not.mp hc) (setupInRange_limits hr).1 (setupInRange_limits hr).2
    · exact h
  | table =>
    simp only [Machine.decideCommand, decideTable]
    split_ifs
    · exact h
    · exact h
    · exact (h.withCtr _).withPmn _
    · exact h
  | join =>
    simp only [Machine.decideCommand, decideJoin]
    split_ifs
    · exact h
    · exact h
    · exact h.applyJoin
  | leave =>
    simp only [Machine.decideCommand, decideLeave, applyLeave]
    split_ifs
    · exact h
    · exact h.withStc _ h.cold id
    · exact h.enterConfig
  | rejoin =>
    simp only [Machine.decideCommand, decideRejoin, applyRejoin]
    split_ifs
    · exact CountersInv.enterListen (h.withStc _ (Nat.zero_le 7) id)
    · exact h
  | restart => exact h.withStc _ h.cold id
  | enable => exact h.withLpt _
  | test =>
    simp only [Machine.decideCommand, decideTest]
    split_ifs
    · exact h
    · exact h.withFru _
  | submit =>
    simp only [Machine.decideCommand, decideSubmit]
    split_ifs
    · exact h
    · exact h
    · exact h
    · exact h
    · exact (h.withTxs _).driveSub
  | withdraw =>
    simp only [Machine.decideCommand, decideWithdraw]
    split
    · exact h
    · split_ifs
      · exact h
      · exact h
      · exact (h.withTxs _).driveSub
  | completions =>
    simp only [Machine.decideCommand, decideCompletions]
    split_ifs
    · exact h
    · exact h
    · exact h.withTxs _
  | fetch =>
    simp only [Machine.decideCommand, decideFetch]
    split
    · exact h
    · exact h.fetched
  | status => exact h.withStc _ h.cold id
  | peers =>
    simp only [Machine.decideCommand, decidePeers]
    split_ifs
    · exact h
    · exact h.withPmn _
  | faults => exact h
  | faultClear => exact h.withFlt _ h.period
  | counter => exact h.withFlt _ h.period
  | snapshot =>
    simp only [Machine.decideCommand, decideSnapshot]
    split
    · exact h.withFlt _ h.period
    · exact h

omit h in
theorem CountersInv.answer {a : Answer} (h : CountersInv a.state) : CountersInv (answer a) := (h.withTxs _).withLpt _

theorem CountersInv.takeCommand (c : Command) : CountersInv (takeCommand c s) := by
  unfold Machine.takeCommand
  split
  · exact CountersInv.answer h
  · exact CountersInv.answer (h.decideCommand c)

theorem CountersInv.transact (c : Command) (args payload : List Byte) : CountersInv (transact c args payload s) := by
  unfold Machine.transact
  split
  · exact CountersInv.takeCommand ((h.withTxs _).withLpt _) c
  · exact h

/-! ### Bytes of the local port -/

theorem CountersInv.passOn (c : Command) (b : Byte) : CountersInv (passOn c b s) := by
  unfold Machine.passOn
  simp only
  split
  · exact (h.withLpt _).withTxs _
  · exact h.withLpt _

theorem CountersInv.commandByte (b : Byte) : CountersInv (commandByte b s) := by
  unfold Machine.commandByte
  simp only
  split
  · exact CountersInv.answer (h.withLpt _)
  · split
    · exact CountersInv.takeCommand ((h.withLpt _).withLpt _) _
    · exact (h.withLpt _).withLpt _

theorem CountersInv.argumentByte (b : Byte) : CountersInv (argumentByte b s) := by
  unfold Machine.argumentByte
  split
  · exact h
  · split
    · exact (h.passOn _ b).takeCommand _
    · exact h.passOn _ b

theorem CountersInv.replyByte : CountersInv (replyByte s) := by
  unfold Machine.replyByte
  split <;> exact h.withLpt _

theorem CountersInv.receiveByte (b : Byte) : CountersInv (receiveByte b s) := by
  unfold Machine.receiveByte
  split
  · exact h
  · exact h.commandByte b
  · exact h.argumentByte b
  · exact h.replyByte
  · exact h.withLpt _

theorem CountersInv.portIdle : CountersInv (portIdle s) := (h.withTxs _).withLpt _

theorem CountersInv.riseReset : CountersInv (riseReset s) := by
  unfold Machine.riseReset
  split_ifs
  · exact h.withStc _ h.cold id
  · exact h.softReset
  · exact h

/-! ### Events of the line -/

theorem CountersInv.useUnheard : CountersInv (useUnheard s) := by
  unfold Machine.useUnheard
  split
  · exact h.withFreeCount _
  · exact h

theorem CountersInv.takeChar (ch : RxChar) : CountersInv (takeChar ch s) := by
  unfold Machine.takeChar
  simp only
  split
  · exact h.withLif _
  · exact ((h.withLif _).withFru _).withSegBuf _

theorem CountersInv.dueSkip : CountersInv (dueSkip s) := by
  unfold Machine.dueSkip
  split
  · exact h.skipExpire
  · exact h

theorem CountersInv.afterSample : CountersInv (afterSample s) := by
  unfold Machine.afterSample
  split_ifs
  · exact h
  · exact (CountersInv.endFrame (h.withLif _)).dueSkip
  · exact h.dueSkip

theorem CountersInv.requestCold : CountersInv (requestCold s) := by
  unfold Machine.requestCold
  split_ifs
  · exact (h.withLif _).withFru _
  · exact h
  · exact h.enterListen

theorem CountersInv.driverOff : CountersInv (driverOff s) := h.withLif _

theorem CountersInv.reportClean : CountersInv (reportClean s) := by
  unfold Machine.reportClean
  split
  · exact ((h.withEcho (Nat.zero_le 3)).withTxs _).driveSub
  · exact h.withCtr _
  all_goals exact h

/-- An echo failure keeps the echo failure count at 3 and the cold attempts at 7 or less (R10, R55). -/
theorem CountersInv.reportFailure : CountersInv (reportFailure s) := by
  unfold Machine.reportFailure
  split
  · simp only
    split
    · exact CountersInv.enterSilent ((h.withTxs _).withEcho (Nat.zero_le 3))
    · next hlt => exact ((h.withTxs _).withEcho (Nat.succ_le_of_lt (Nat.lt_of_not_le hlt))).withCtr _
  · split
    · exact CountersInv.enterSilent (h.withStc _ (Nat.zero_le 7) id)
    · next hlt => exact CountersInv.enterListen (h.withStc _ (Nat.succ_le_of_lt (Nat.lt_of_not_le hlt)) id)
  all_goals exact h

theorem CountersInv.echoFailureWith (b : Bool) (t : Transmission) : CountersInv (echoFailureWith b t s) := by
  unfold Machine.echoFailureWith
  split
  · exact (h.driverOff.raise _).reportFailure
  · exact h.driverOff.reportFailure.raise _

end

/-! ### Every command -/

theorem countersInv_reset : CountersInv State.reset where
  echo := by decide
  cold := by decide
  quiet := by decide
  ages := nofun
  period := by decide
  ageLimit := by decide
  configEmpty _ := rfl

/-- Every outcome that is a next state has its counters in range. -/
def CountersOutcome (o : Host.Outcome State Fault Refusal) : Prop :=
  ∀ t, o = .next t → CountersInv t

theorem countersOutcome_next {t : State} (h : CountersInv t) : CountersOutcome (.next t) := by
  rintro _ ⟨⟩; exact h

theorem countersOutcome_ite {p : Prop} [Decidable p] {x y : Host.Outcome State Fault Refusal}
    (hx : p → CountersOutcome x) (hy : CountersOutcome y) : CountersOutcome (if p then x else y) := by
  split
  · exact hx ‹p›
  · exact hy

section

variable {s : State} (h : CountersInv s)
include h

/-- A row of the receiver, of a line timer or of a transmit outcome keeps the ranges. -/
theorem CountersInv.execLine {i : Instr} (line : LineEvent i) : CountersOutcome (exec i s) := by
  have stay := countersOutcome_next h
  cases i with
  | receiverSettled => exact countersOutcome_ite (fun _ => countersOutcome_next (h.withLif _)) stay
  | fallingEdge => exact countersOutcome_ite (fun _ => countersOutcome_next (h.withLif _)) stay
  | breakEnded => exact countersOutcome_ite (fun _ => countersOutcome_next (h.withLif _)) stay
  | startBitSeen =>
    simp only [exec, execStartBitSeen]
    split
    · exact countersOutcome_next (h.withCtr _)
    · exact countersOutcome_next (((h.useUnheard.withLif _ (by simp)).withFru _).withCtr _)
    · exact stay
  | characterReceived data good => exact countersOutcome_ite (fun _ => countersOutcome_next (h.takeChar _)) stay
  | frameEnd =>
    refine countersOutcome_ite (fun _ => ?_) stay
    split
    · exact countersOutcome_next h.endFrame
    · exact countersOutcome_next h.endFrame
    · exact countersOutcome_next (h.withLif _)
    · exact stay
  | entryAged sender cls => exact countersOutcome_ite (fun _ => countersOutcome_next (h.ageOut _ _ _)) stay
  | quietLimitReached =>
    refine countersOutcome_ite (fun _ => countersOutcome_next (CountersInv.driveDlv ?_)) stay
    exact h.withRxu _ (quietBoundary_le h.quiet) (by simpa using h.ages) (by simpa using h.configEmpty)
  | periodicTransfer =>
    exact countersOutcome_ite (fun _ => countersOutcome_next (h.withFlt _ (periodBoundary_lt h.period))) stay
  | echoClean =>
    simp only [exec, execEchoClean]
    split
    · exact countersOutcome_ite (fun _ => countersOutcome_next h.driverOff.reportClean.finishExit) stay
    · exact stay
  | echoFailure =>
    simp only [exec, execEchoFailure]
    split
    · refine countersOutcome_ite (fun _ => stay) (countersOutcome_ite (fun _ => ?_) ?_)
      · exact countersOutcome_next ((h.withFreeCount _).echoFailureWith _ _).finishExit
      · exact countersOutcome_next (h.echoFailureWith _ _).finishExit
    · exact stay
  | cut => exact countersOutcome_ite (fun _ => countersOutcome_next (h.driverOff.withTxs _).finishExit) stay
  | skipExpiry =>
    refine countersOutcome_ite (fun _ => countersOutcome_ite (fun _ => ?_) ?_) stay
    · exact countersOutcome_next (h.withCtr _)
    · exact countersOutcome_next h.skipExpire
  | coldStartWaitExpiry =>
    refine countersOutcome_ite (fun _ => countersOutcome_next (CountersInv.requestCold ?_)) stay
    exact ((h.withCtr _).withStc { s.stc with station := .cold } h.cold nofun).withFru _
  | falseStart =>
    exact countersOutcome_ite (fun _ => countersOutcome_next (CountersInv.afterSample (h.withLif _))) stay
  | _ => exact line.elim

/-- A reset keeps the ranges (R63, R64). -/
theorem CountersInv.execFullReset (level : Level) : CountersOutcome (exec (.fullReset level) s) := by
  have hfull : CountersInv (fullResetState s) := countersInv_reset.congr rfl rfl rfl rfl rfl id
  cases level with
  | low => exact countersOutcome_next (hfull.congr rfl rfl rfl rfl rfl id)
  | high => exact countersOutcome_ite (fun _ => countersOutcome_next hfull) (countersOutcome_next h)

/-- Every command keeps the counters in their ranges. -/
theorem CountersInv.exec (i : Instr) : CountersOutcome (exec i s) := by
  have stay := countersOutcome_next h
  cases hi : transactionOf i with
  | some transaction => rw [exec_transaction s hi]; exact countersOutcome_next (h.transact _ _ _)
  | none =>
    cases i with
    | fullReset level => exact h.execFullReset level
    | softReset => exact countersOutcome_ite (fun _ => countersOutcome_next h.softReset) stay
    | selNFall => exact countersOutcome_ite (fun _ => countersOutcome_next (h.withLpt _)) stay
    | transactionAbandoned => exact countersOutcome_ite (fun _ => countersOutcome_next h.portIdle) stay
    | transactionEnd => exact countersOutcome_ite (fun _ => countersOutcome_next h.portIdle.riseReset) stay
    | unknownCommand code =>
      exact countersOutcome_ite (fun _ => countersOutcome_next (CountersInv.answer (h.withLpt _))) stay
    | portByteCompleted b => exact countersOutcome_next (h.receiveByte b)
    | receiverSettled | startBitSeen | characterReceived | frameEnd | entryAged | quietLimitReached | periodicTransfer
    | echoClean | echoFailure | cut | skipExpiry | coldStartWaitExpiry | fallingEdge | falseStart | breakEnded =>
      exact h.execLine trivial
    | _ => cases hi

end

end Sys2Proof.Machine

namespace Sys2Proof.Proofs

open Sys2Proof.Machine

/-- Settles O59: every shared operation keeps the ranges, and so does each command made of them. -/
theorem countersKeptByStep : Obligations.CountersKeptByStep := by
  intro s t h hstep
  unfold step at hstep
  split at hstep
  · cases hstep
    exact h
  · exact (h.withPending _).exec _ t hstep

end Sys2Proof.Proofs
end

section
/-! SUPPORT. The events of the receiver: the settling, the edges, the start bits and the characters (R3 to R5, R8, R11, R19). -/

namespace Sys2Proof.Machine

variable {s : State}

/-! ### The skip timer over a frame end -/

theorem skip_standsOverTasks : StandsOverTasks fun s => s.ctr.skip ≠ .awaitingSample where
  report o s h := by rcases raise_ctr s o with e | e <;> rw [e] <;> exact h
  receive _ _ h := h
  peers _ _ h := h
  line _ h := h

theorem phaseEndWith_skip (o : Config.FrameEndOrder) (w : Work) (h : s.ctr.skip ≠ .awaitingSample) :
    (phaseEndWith o w s).ctr.skip ≠ .awaitingSample := by
  refine phaseEndWith_induct (P := fun s => s.ctr.skip ≠ .awaitingSample) skip_standsOverTasks.peers
    (fun _ _ _ _ _ => skip_standsOverTasks.runTask w _ _ _ _) (fun u _ => by simp) o ?_
  rw [countAtEnd_ctr, State.withCtr_ctr, advanced]
  split <;> exact h

theorem phaseEnd_skip (w : Work) (h : s.ctr.skip ≠ .awaitingSample) : (phaseEnd w s).ctr.skip ≠ .awaitingSample :=
  phaseEndWith_skip _ w (by simpa using h)

@[simp] theorem trackClean_skip (b : List Byte) (s : State) : (trackClean b s).ctr.skip = s.ctr.skip := by
  unfold trackClean
  simp only
  split_ifs <;> rfl

/-- A frame end leaves no decision to wait for the middle sample of an edge. -/
theorem endFrame_skip (h : s.ctr.skip ≠ .awaitingSample) : (endFrame s).ctr.skip ≠ .awaitingSample := by
  unfold endFrame
  split
  · exact h
  · split_ifs
    · exact h
    · unfold ownFrameEnd
      split_ifs
      · exact phaseEnd_skip _ h
      · exact phaseEnd_skip _ h
      · exact h
    · simp only
      split
      · exact phaseEndWith_skip _ _ (by simpa using h)
      · have hend : ∀ w b x, (phaseEnd w (noteFault b x (dropFrame s))).ctr.skip ≠ .awaitingSample :=
          fun w b x => phaseEnd_skip w (by simpa using h)
        simp only [faultFrameEnd]
        split
        · exact nofun
        · exact hend _ _ _

theorem dueSkip_of_not_awaiting (h : s.ctr.skip ≠ .awaitingSample) : dueSkip s = s := if_neg h

/-! ### The rows of the receiver -/

theorem exec_falseStart_edge (h : s.lif.receiver = .character false) :
    exec .falseStart s = .next (afterSample (s.withLif { s.lif with receiver := .idle })) := if_pos h

theorem exec_falseStart_other (h : s.lif.receiver ≠ .character false) : exec .falseStart s = .next s := if_neg h

/-- With no frame on the line, or with the driver ON, no frame ends. -/
theorem exec_frameEnd_stay (h : s.fru.frame = none ∨ s.lif.tx ≠ none) : exec .frameEnd s = .next s := by
  refine if_neg fun ⟨hf, ht⟩ => ?_
  rcases h with h | h
  · simp [h] at hf
  · exact h ht

/-- A frame end with an edge not yet confirmed waits for its middle sample (R5). -/
theorem exec_frameEnd_edge (hf : s.fru.frame ≠ none) (ht : s.lif.tx = none) (hr : s.lif.receiver = .character false) :
    exec .frameEnd s = .next (s.withLif { s.lif with frameEndDue := true }) := by
  have : exec .frameEnd s = execFrameEnd s := rfl
  rw [this, execFrameEnd, if_pos ⟨Option.isSome_iff_ne_none.mpr hf, ht⟩, hr]

/-- With the line free, the frame on it ends; with no frame there, nothing does. -/
theorem exec_frameEnd_free (h : LineFree s) : exec .frameEnd s = .next (endFrame s) := by
  obtain ⟨ht, hr⟩ := h
  have he : exec .frameEnd s = execFrameEnd s := rfl
  by_cases hf : s.fru.frame = none
  · rw [exec_frameEnd_stay (.inl hf), endFrame, hf]
  · rw [he, execFrameEnd, if_pos ⟨Option.isSome_iff_ne_none.mpr hf, ht⟩]
    rcases hr with hr | hr <;> rw [hr]

/-- With no frame end waiting and no skip expiry waiting, nothing comes with a false start. -/
theorem afterSample_of_not_waiting (hd : s.lif.frameEndDue = false) (hs : s.ctr.skip ≠ .awaitingSample) :
    afterSample s = s := by
  unfold afterSample
  rw [hd, dueSkip_of_not_awaiting hs]
  simp

/-- The frame end that waited comes with a false start (R5). -/
theorem afterSample_frameEndDue (hd : s.lif.frameEndDue = true) (ht : s.lif.tx = none)
    (hs : s.ctr.skip ≠ .awaitingSample) :
    afterSample s = endFrame (s.withLif { s.lif with frameEndDue := false }) := by
  unfold afterSample
  rw [if_neg (by simp [ht]), if_pos hd]
  exact dueSkip_of_not_awaiting (endFrame_skip hs)

/-! ### Start bits -/

/-- While no own frame is in doubt, a start bit goes on with the frame or begins one. -/
theorem startFrame_of_heard (h : unheardOwn s = false) (ended : Bool) : startFrame ended s = beginFrame s := by
  simp [startFrame, h]

theorem useUnheard_of_heard (h : unheardOwn s = false) : useUnheard s = s := by
  simp [useUnheard, h]

theorem useUnheard_eq (s : State) : useUnheard s = s.withFreeCount (useUnheard s).freeCount := by
  unfold useUnheard; split <;> rfl

/-- An own frame is in doubt exactly while UNALIGNED, the driver OFF, no frame end waiting, and none of its start bits heard. -/
theorem unheardOwn_iff (s : State) :
    unheardOwn s = true ↔ s.ctr.aligned = false ∧ s.lif.tx = none ∧ s.lif.frameEndDue = false ∧
      ∃ f, s.fru.frame = some f ∧ f.own = true ∧ f.begun = false := by
  unfold unheardOwn
  cases s.fru.frame <;> simp [and_assoc]

theorem beginFrame_begun (s : State) : (beginFrame s).begun = true := by
  unfold beginFrame
  split
  · rfl
  · split
    · assumption
    · rfl

theorem startFrame_begun (ended : Bool) (s : State) : (startFrame ended s).begun = true := by
  unfold startFrame
  split
  · rfl
  · exact beginFrame_begun s

theorem exec_startBitSeen_edge (h : s.lif.receiver = .character false) :
    exec .startBitSeen s = .next (lineActivity (((useUnheard s).withLif
      { s.lif with receiver := .character true, frameEndDue := false }).withFru
      { s.fru with frame := some (startFrame (Config.unheardFrameOver s.freeCount) s) })) := by
  have : exec .startBitSeen s = execStartBitSeen s := rfl
  rw [this, execStartBitSeen, h]

theorem exec_startBitSeen_settling (h : s.lif.receiver = .settling) : exec .startBitSeen s = .next (lineActivity s) := by
  have : exec .startBitSeen s = execStartBitSeen s := rfl
  rw [this, execStartBitSeen, h]

theorem exec_startBitSeen_other (h1 : s.lif.receiver ≠ .settling) (h2 : s.lif.receiver ≠ .character false) :
    exec .startBitSeen s = .next s := by
  have : exec .startBitSeen s = execStartBitSeen s := rfl
  rw [this, execStartBitSeen]
  split
  · exact absurd ‹_› h1
  · exact absurd ‹_› h2
  · rfl

/-! ### Characters (R8, R11, R19, R105) -/

theorem exec_characterReceived_confirmed {data : Byte} {good : Bool} (h : s.lif.receiver = .character true) :
    exec (.characterReceived data good) s = .next (takeChar ⟨data, good⟩ s) := if_pos h

theorem takeChar_lif (ch : RxChar) (s : State) :
    (takeChar ch s).lif =
      { s.lif with receiver := if ch.good then .idle else .brk, tx := s.lif.tx.map (echoCheck ch) } := by
  unfold takeChar; simp only; split <;> rfl

/-- With no frame on the line a character reaches the echo check alone. -/
theorem takeChar_of_none (ch : RxChar) (h : s.fru.frame = none) :
    (takeChar ch s).fru = s.fru ∧ (takeChar ch s).rxu = s.rxu := by
  simp [takeChar, h]

/-- A character of the frame on the line is gathered, and may reach the segment buffer. -/
theorem takeChar_of_some (ch : RxChar) {f : Gather} (h : s.fru.frame = some f) :
    (takeChar ch s).fru = { s.fru with frame := some (gatherChar ch f) } ∧
      (takeChar ch s).rxu = { s.rxu with segBuf := bufferChar ch f s.rxu.segBuf } := by
  simp [takeChar, h]

theorem gatherChar_of_own (ch : RxChar) {f : Gather} (h : f.own = true) : gatherChar ch f = f := if_pos h

theorem gatherChar_of_other (ch : RxChar) {f : Gather} (h : f.own = false) :
    gatherChar ch f = if f.chars.length < 300 then { f with chars := f.chars ++ [ch] }
      else { f with lateBad := f.lateBad || !ch.good } := by
  simp [gatherChar, h, Config.characterLimit]

theorem Gather.bytes_length (f : Gather) : f.bytes.length = f.chars.length := List.length_map ..

/-- The next character is a payload byte of a DATA frame where it stands past the header and before the CRC (R19). -/
theorem expectsPayload_iff (f : Gather) :
    expectsPayload f.bytes = true ↔
      kindOf f.bytes = some .data ∧ 8 ≤ f.chars.length ∧ f.chars.length < 8 + lengthOf f.bytes := by
  simp [expectsPayload, f.bytes_length, and_assoc]

/-- A character that is no payload byte of another station's frame leaves the segment buffer as it is. -/
theorem bufferChar_of_not_payload (ch : RxChar) {f : Gather} (buf : List Byte)
    (h : f.own = true ∨ expectsPayload f.bytes = false) : bufferChar ch f buf = buf := by
  rcases h with h | h <;> simp [bufferChar, h]

/-- A payload byte of another station's frame goes to the segment buffer, which the first one starts again (R105). -/
theorem bufferChar_of_payload (ch : RxChar) {f : Gather} (buf : List Byte) (ho : f.own = false)
    (h : expectsPayload f.bytes = true) :
    bufferChar ch f buf = bufferPayload ch.data (if f.chars.length = 8 then [] else buf) := by
  simp [bufferChar, ho, h]

/-- The echo check of a character against the intended byte (R8). -/
theorem echoCheck_of_intended (ch : RxChar) {x : Transmission} {b : Byte} (h : x.bytes[x.matched]? = some b) :
    echoCheck ch x = if ch.good = true ∧ ch.data = b ∧ x.mismatch = false then { x with matched := x.matched + 1 }
      else { x with mismatch := true } := by
  simp only [echoCheck, h]

end Sys2Proof.Machine

namespace Sys2Proof.Proofs

open Sys2Proof.Machine

/-- Settles O28: each row by its branch; a FALSE_START that a frame end waits for is that frame end, after which no skip expiry
waits. -/
theorem receiverMoves : Obligations.ReceiverMoves := by
  intro s
  refine ⟨fun h => if_pos h, fun h => if_neg h, fun h => if_pos h, fun h => if_neg h, fun h => if_pos h,
    fun h => if_neg h, ?_, exec_falseStart_other, ?_, ?_, exec_frameEnd_stay⟩
  · intro hr hd hs
    have hd' : (s.withLif { s.lif with receiver := .idle }).lif.frameEndDue = false := hd
    rw [exec_falseStart_edge hr, afterSample_of_not_waiting hd' hs]
    rfl
  · intro hr hf ht
    exact exec_frameEnd_edge hf ht hr
  · intro hr hd ht hs
    have hd' : (s.withLif { s.lif with receiver := .idle }).lif.frameEndDue = true := hd
    have hfree : LineFree { s with lif := { s.lif with receiver := .idle, frameEndDue := false } } := ⟨ht, .inl rfl⟩
    rw [exec_falseStart_edge hr, afterSample_frameEndDue hd' ht hs, exec_frameEnd_free hfree]
    rfl

/-- Settles O29: the frame is gathered on, begun, or, where an own frame is in doubt, one of the two. -/
theorem startBitSeen : Obligations.StartBitSeen := by
  intro s ctr
  refine ⟨?_, ?_, ?_⟩
  · intro hr
    rw [exec_startBitSeen_settling hr]
    rfl
  · intro hr
    refine ⟨_, startFrame (Config.unheardFrameOver s.freeCount) s, exec_startBitSeen_edge hr, ?_, rfl, rfl,
      startFrame_begun _ s, ?_, ?_, ?_, ?_, ?_⟩
    · rw [useUnheard_eq]; rfl
    · intro hf
      have hh : unheardOwn s = false := by simp [unheardOwn, hf]
      rw [startFrame_of_heard hh, beginFrame, hf]
      rfl
    · intro g hf hb
      have hh : unheardOwn s = false := by simp [unheardOwn, hf, hb]
      rw [startFrame_of_heard hh, beginFrame, hf]
      simp [hb]
    · intro g hf hb
      by_cases hu : unheardOwn s = true ∧ Config.unheardFrameOver s.freeCount = true
      · obtain ⟨hu, he⟩ := hu
        obtain ⟨ha, ht, hd, f, hf', ho, -⟩ := (unheardOwn_iff s).mp hu
        obtain rfl : g = f := Option.some.inj (hf.symm.trans hf')
        right
        refine ⟨ho, ht, hd, ha, ?_⟩
        simp [startFrame, hu, he, newFrame, ht, ha]
      · left
        have : startFrame (Config.unheardFrameOver s.freeCount) s = beginFrame s := by
          simpa [startFrame] using fun h h' => absurd ⟨h, h'⟩ hu
        rw [this, beginFrame, hf]
        simp [hb]
    · intro h
      have hh : unheardOwn s = false := by
        rw [← Bool.not_eq_true, unheardOwn_iff]
        rintro ⟨ha, ht, hd, f, hf, -⟩
        simp [ha, ht, hd, hf] at h
      rw [useUnheard_of_heard hh]
      rfl
    · rw [useUnheard_eq]
      refine ⟨fun x hx => ?_, rfl⟩
      cases x <;> simp [Part.Same] at hx ⊢
  · exact exec_startBitSeen_other

/-- Settles O30: the character at the receiver and the echo check, at the frame on the line, and at the segment buffer. -/
theorem characterReceived : Obligations.CharacterReceived := by
  intro data good s
  refine ⟨fun h => if_neg h, fun hr =>
    ⟨_, exec_characterReceived_confirmed hr, ?_, ?_, ?_, takeChar_of_none _, ?_, ?_, ?_⟩⟩
  · rw [takeChar_lif]
  · intro ht
    rw [takeChar_lif, ht]
    rfl
  · intro x b ht hb
    rw [takeChar_lif, ht]
    exact congrArg some (echoCheck_of_intended _ hb)
  · intro f hf ho
    obtain ⟨hfru, hrxu⟩ := takeChar_of_some ⟨data, good⟩ hf
    rw [hfru, hrxu, gatherChar_of_own _ ho, bufferChar_of_not_payload _ _ (.inl ho), ← hf]
    exact ⟨rfl, rfl⟩
  · intro f hf ho
    obtain ⟨hfru, hrxu⟩ := takeChar_of_some ⟨data, good⟩ hf
    rw [hfru, hrxu]
    refine ⟨rfl, congrArg some (gatherChar_of_other _ ho), rfl, ?_, ?_, ?_⟩
    · intro hn
      exact bufferChar_of_not_payload _ _ (.inr (by simpa using mt (expectsPayload_iff f).mp hn))
    · intro hk hl h1
      have hp := (expectsPayload_iff f).mpr ⟨hk, by omega, by omega⟩
      simp only [bufferChar_of_payload _ _ ho hp, if_pos hl]
      rfl
    · intro hk h8 hl
      have hp := (expectsPayload_iff f).mpr ⟨hk, by omega, hl⟩
      simp only [bufferChar_of_payload _ _ ho hp, if_neg (show ¬ f.chars.length = 8 by omega)]
      rfl
  · refine ⟨fun x hx => ?_, by simp⟩
    cases x <;> simp [Part.Same] at hx ⊢

end Sys2Proof.Proofs
end

section
/-! SUPPORT. The six checks of R20 in the words of the manual, and the frame end of a frame with a fault (R20, R21, R149 to
R157). -/

namespace Sys2Proof.Machine

/-! ### Frame kinds -/

theorem FrameKind.ofCode_eq_some {n : Nat} {k : FrameKind} : FrameKind.ofCode n = some k ↔ n = k.code := by
  unfold FrameKind.ofCode
  split <;> cases k <;> simp_all [FrameKind.code]

theorem kindOf_eq_some {bytes : List Byte} {k : FrameKind} :
    kindOf bytes = some k ↔ (byteAt bytes 1).toNat / 32 = k.code := FrameKind.ofCode_eq_some

theorem kindOf_eq_data {bytes : List Byte} : kindOf bytes = some .data ↔ (byteAt bytes 1).toNat / 32 = 1 := kindOf_eq_some
theorem kindOf_eq_fill {bytes : List Byte} : kindOf bytes = some .fill ↔ (byteAt bytes 1).toNat / 32 = 2 := kindOf_eq_some
theorem kindOf_eq_cold {bytes : List Byte} : kindOf bytes = some .cold ↔ (byteAt bytes 1).toNat / 32 = 3 := kindOf_eq_some

/-- A frame names one of the three kinds or none (R12). -/
theorem kindOf_cases (bytes : List Byte) :
    (kindOf bytes = some .data ∧ (byteAt bytes 1).toNat / 32 = 1) ∨
      (kindOf bytes = some .fill ∧ (byteAt bytes 1).toNat / 32 = 2) ∨
      (kindOf bytes = some .cold ∧ (byteAt bytes 1).toNat / 32 = 3) ∨
      (kindOf bytes = none ∧ (byteAt bytes 1).toNat / 32 ≠ 1 ∧ (byteAt bytes 1).toNat / 32 ≠ 2 ∧
        (byteAt bytes 1).toNat / 32 ≠ 3) := by
  cases hk : kindOf bytes with
  | none =>
    refine .inr (.inr (.inr ⟨rfl, fun h => ?_, fun h => ?_, fun h => ?_⟩))
    · rw [kindOf_eq_data.mpr h] at hk; cases hk
    · rw [kindOf_eq_fill.mpr h] at hk; cases hk
    · rw [kindOf_eq_cold.mpr h] at hk; cases hk
  | some k =>
    cases k with
    | data => exact .inl ⟨rfl, kindOf_eq_data.mp hk⟩
    | fill => exact .inr (.inl ⟨rfl, kindOf_eq_fill.mp hk⟩)
    | cold => exact .inr (.inr (.inl ⟨rfl, kindOf_eq_cold.mp hk⟩))

/-! ### Check 2: structure -/

theorem structureOk_iff (bytes : List Byte) : structureOk bytes = true ↔ ¬ StructureFault bytes := by
  unfold structureOk StructureFault leadByte
  by_cases hlead : byteAt bytes 0 = 195#8
  · rcases kindOf_cases bytes with ⟨hk, hc⟩ | ⟨hk, hc⟩ | ⟨hk, hc⟩ | ⟨hk, h1, h2, h3⟩
    · simp [hk, hc, hlead, lengthOf]; omega
    · simp [hk, hc, hlead]; omega
    · simp [hk, hc, hlead]; omega
    · simp [hk, h1, h2, h3]
  · simp [hlead]

/-! ### Check 3: the CRC -/

theorem coveredLength_eq (bytes : List Byte) :
    coveredLength bytes = if (byteAt bytes 1).toNat / 32 = 1 then 7 + (byteAt bytes 7).toNat else 4 := by
  unfold coveredLength
  rcases kindOf_cases bytes with ⟨hk, hc⟩ | ⟨hk, hc⟩ | ⟨hk, hc⟩ | ⟨hk, h1, h2, h3⟩
  · simp [hk, hc, lengthOf]
  · simp [hk, hc]
  · simp [hk, hc]
  · simp [hk, h1]

/-- A frame of the right structure holds the two CRC bytes after those the CRC covers. -/
theorem coveredLength_le {bytes : List Byte} (h : ¬ StructureFault bytes) : coveredLength bytes + 3 ≤ bytes.length := by
  rw [coveredLength_eq]
  simp only [StructureFault, not_or, not_and] at h
  split <;> omega

theorem take_two_drop {bytes : List Byte} {n : Nat} (h : n + 2 ≤ bytes.length) :
    (bytes.drop n).take 2 = [byteAt bytes n, byteAt bytes (n + 1)] := by
  rw [List.drop_eq_getElem_cons (by omega), List.drop_eq_getElem_cons (by omega)]
  simp only [List.take_succ_cons, List.take_zero]
  simp [byteAt, List.getElem?_eq_getElem (show n < bytes.length by omega),
    List.getElem?_eq_getElem (show n + 1 < bytes.length by omega)]

theorem lowByte_toNat (h : Half) : (lowByte h).toNat = h.toNat % 256 := by simp [lowByte]

theorem highByte_toNat (h : Half) : (highByte h).toNat = h.toNat / 256 := by
  have := h.isLt
  simp [highByte, Nat.shiftRight_eq_div_pow]
  omega

theorem crcOk_iff {bytes : List Byte} (h : coveredLength bytes + 3 ≤ bytes.length) :
    crcOk bytes = true ↔ ¬ CrcFault bytes := by
  unfold crcOk CrcFault crcBytes
  simp only
  rw [← coveredLength_eq, take_two_drop (by omega), Nat.add_comm 1 (coveredLength bytes), beq_iff_eq]
  simp only [List.cons.injEq, and_true, ← BitVec.toNat_inj, lowByte_toNat, highByte_toNat, not_or, not_not]

/-! ### Check 4: values -/

theorem lastOf_iff (bytes : List Byte) : lastOf bytes = true ↔ (byteAt bytes 6).toNat % 2 = 1 := by
  simp [lastOf, BitVec.getLsbD, Nat.testBit_zero]

theorem badDestination_iff (d : Byte) : badDestination d = true ↔ 32 ≤ d.toNat ∧ d.toNat ≤ 254 := by
  simp [badDestination]

theorem valuesOk_iff (table : List PhaseEntry) (bytes : List Byte) :
    valuesOk table bytes = true ↔ ¬ ValuesFault table bytes := by
  have hlength : (byteAt bytes 7).toNat = lengthOf bytes := rfl
  have hindex : (byteAt bytes 6).toNat / 2 % 8 = indexOf bytes := rfl
  have hdest : (byteAt bytes 5).toNat = (destinationOf bytes).toNat := rfl
  unfold valuesOk ValuesFault
  by_cases hp : (byteAt bytes 2).toNat < 64
  · simp only [Nat.mod_eq_of_lt hp, ← lastOf_iff, hlength, hindex, hdest, ← badDestination_iff]
    rcases kindOf_cases bytes with ⟨hk, hc⟩ | ⟨hk, hc⟩ | ⟨hk, hc⟩ | ⟨hk, h1, h2, h3⟩
    · simp only [hk, hc]
      cases lastOf bytes <;> cases badDestination (destinationOf bytes) <;> simp <;> omega
    · simp [hk, hc, hp]
    · simp [hk, hc, hp, cycleOf]
    · simp [hk, h1, h3, hp]
  · simp [hp, Nat.le_of_not_lt hp]

/-! ### Check 6: the owner -/

theorem ownerOk_iff (table : List PhaseEntry) (bytes : List Byte) :
    ownerOk table bytes = true ↔ ¬ ForeignFault table bytes := by
  unfold ownerOk ForeignFault
  have hp : (phaseOf bytes).val = (byteAt bytes 2).toNat % 64 := rfl
  rw [hp]
  cases table[(byteAt bytes 2).toNat % 64]? with
  | none => simp
  | some e =>
    have hs : (senderOf bytes).val = (byteAt bytes 1).toNat % 32 := rfl
    simp [Fin.ext_iff, hs]

/-! ### The check order -/

open Classical in
/-- The check order of R20 with each check in the words of the manual. -/
theorem checkFrame_eq (table : List PhaseEntry) (digest : Byte) (f : Gather) :
    checkFrame table digest f =
      if FramingFault f then .framing
      else if StructureFault f.bytes then .format
      else if CrcFault f.bytes then .crc
      else if ValuesFault table f.bytes then .format
      else if byteAt f.bytes 4 ≠ digest then .digest
      else if ForeignFault table f.bytes then .foreign
      else .clean := by
  have hframing : framingError f = true ↔ FramingFault f := framingError_iff f
  unfold checkFrame
  simp only [hframing, Bool.not_eq_true', ← Bool.not_eq_true, structureOk_iff, valuesOk_iff, ownerOk_iff, not_not,
    bne_iff_ne, ne_eq]
  by_cases hs : StructureFault f.bytes
  · simp only [if_pos hs]
  · simp only [if_neg hs, crcOk_iff (coveredLength_le hs), not_not]

/-- The outcome is the first fault met as the checks are made in order (R20). -/
theorem checkFrame_iff (table : List PhaseEntry) (digest : Byte) (f : Gather) (outcome : FrameOutcome) :
    checkFrame table digest f = outcome ↔ OutcomeByChecks table digest f outcome := by
  have hbytes : f.chars.map RxChar.data = f.bytes := rfl
  rw [checkFrame_eq]
  unfold OutcomeByChecks
  simp only [hbytes]
  split_ifs <;> cases outcome <;> simp_all

/-- The sender handed to the Fault Unit is that of a second character without a framing error (R21). -/
theorem faultSender_eq_some (f : Gather) (a : Addr) :
    faultSender f = some a ↔ ∃ ch, f.chars[1]? = some ch ∧ ch.good = true ∧ a.val = ch.data.toNat % 32 := by
  unfold faultSender senderOf Gather.bytes
  match f.chars with
  | [] => simp
  | [_] => simp
  | x :: ch :: rest =>
    cases hg : ch.good
    · simp [hg]
    · simp only [if_true, Option.some.injEq, List.getElem?_cons_succ, List.getElem?_cons_zero, exists_eq_left', hg,
        true_and, Fin.ext_iff]
      exact eq_comm

/-! ### Line errors and notices of a frame with a fault (R141, R157) -/

theorem errorsOf_eq_counted (selection : CounterSelection) (outcome : FrameOutcome) (e : Option Nat) :
    errorsOf selection outcome e = counted selection outcome e := by
  cases selection with
  | pattern => cases outcome <;> cases e <;> rfl
  | framing | crc | framingCrc => cases outcome <;> rfl

@[simp] theorem updatePeer_peers (b : Addr) (g : Peer → Peer) (x : Pmn) (a : Addr) :
    (updatePeer b g x).peers[a.val] = if a = b then g x.peers[a.val] else x.peers[a.val] := by
  by_cases h : a = b
  · subst h; simp [updatePeer]
  · have hne : b.val ≠ a.val := fun e => h (Fin.ext e.symm)
    simp [updatePeer, h, Vector.getElem_set_ne _ _ hne]

/-- The notices of a frame with a fault at the peer records. -/
theorem noteFault_peers {outcome : FrameOutcome} {kind : FaultKind} (h : outcome.kind = some kind) (f : Gather)
    (capture : CaptureMode) (a : Addr) (s : State) :
    (noteFault f.bytes outcome s).pmn.peers[a] = notedPeer f outcome capture a s.pmn.peers[a] := by
  cases outcome with
  | clean => cases h
  | framing | format | crc => simp [noteFault, notedPeer]
  | digest | foreign => by_cases ha : a = senderOf f.bytes <;> simp [noteFault, noteMismatch, notedPeer, ha]

@[simp] theorem noteFault_marks (b : List Byte) (outcome : FrameOutcome) (s : State) :
    (noteFault b outcome s).pmn.marks = s.pmn.marks := by
  unfold noteFault; split <;> rfl

/-! ### A phase end inside a cycle -/

/-- A phase end with nothing but a fault of its own and line errors, which ends no cycle: the advance, the count, the fault, and
the start of the next phase while ALIGNED (R28, R31, R149, R157). -/
theorem phaseEnd_inside {w : Work} {s : State} (inside : endsCycle s = false) (taken : w.taken = none)
    (heard : w.heard = none) :
    phaseEnd w s =
      let u := raiseAll w.fault.toList ((s.withCtr (advanced s)).withFlt (countErrors w.errors s.flt))
      if s.ctr.aligned then phaseStart u else u := by
  have horder : orderMatters w s = false := by simp [orderMatters, inside, taken]
  have htasks : tasksBefore .plain false = [.fault, .frame] := by decide
  have hplain : Config.FrameEndOrder.plain.creditFirst = true := rfl
  simp only [phaseEnd, orderOf, useOrder, horder, phaseEndWith, inside, htasks, hplain, runTasks, runTask, creditHeard, heard,
    taken, countAtEnd, List.foldl_cons, List.foldl_nil, Bool.false_and, Bool.false_eq_true, if_false, if_true,
    State.withCtr_flt]

/-- Inside a cycle the advance moves p while ALIGNED, and nothing else but HOLD and the whole-cycle flag as they stand. -/
theorem advanced_inside {s : State} (inside : endsCycle s = false) :
    advanced s = if s.ctr.aligned = true then { s.ctr with p := Fin.ofNat 64 (s.ctr.p.val + 1) } else s.ctr := by
  simp [advanced, nextPhase, nextCycle, inside]

theorem endsCycle_eq_false {s : State} (h : ¬ LastPhase s) : endsCycle s = false := by
  rw [← Bool.not_eq_true]
  intro he
  exact h (by simpa [endsCycle, tableLength, LastPhase] using he)

/-! ### Where an occurrence leaves the station, with the driver OFF -/

/-- After an occurrence the station is in COLD where it was and the occurrence does not stop it. -/
theorem raise_station_cold {o : Occurrence} {s : State} (ht : s.lif.tx = none) :
    (raise o s).stc.station = .cold ↔ s.stc.station = .cold ∧ ¬ Stops o.kind s := by
  by_cases hs : Stops o.kind s
  · have ht' : (s.withFlt (recorded s.cfg.masks o s.flt)).lif.tx = none := ht
    rw [raise_stops hs, stoppingReport_off ht']
    refine ⟨fun hc => ?_, fun h => absurd hs h.2⟩
    split at hc
    · cases hc
    · next hstop => exact absurd (show stoppable s.stc.station = true by rw [show s.stc.station = .cold from hc]; rfl) hstop
  · rw [raise_calm hs]
    exact (and_iff_left hs).symm

/-! ### The frame end of a frame with a fault, where no cycle ends -/

section

variable {f : Gather} {outcome : FrameOutcome} {kind : FaultKind} {s : State}

/-- The fault of a frame as it is reported, with p and c before the advance (R152, R153). -/
def frameReport (f : Gather) (kind : FaultKind) (s : State) : Occurrence :=
  ⟨kind, faultSender f, none, s.ctr.p, s.ctr.c, f.bytes.take 8⟩

/-- The state in which the fault of a frame is reported: its notices given, the phase advanced, its line errors counted. -/
def beforeReport (f : Gather) (outcome : FrameOutcome) (s : State) : State :=
  ((noteFault f.bytes outcome (dropFrame s)).withCtr (advanced s)).withFlt
    (countErrors (counted s.cfg.selection outcome (patternErrors f)) s.flt)

/-- The next phase begun while ALIGNED, and a station still in COLD returned to LISTEN (R28, R54). -/
def afterReport (aligned : Bool) (u : State) : State :=
  let v := if aligned then phaseStart u else u
  if v.stc.station = .cold then enterListen v else v

theorem endFrame_fault (h : EndsWith f outcome s) (hk : outcome.kind = some kind) :
    endFrame s = faultFrameEnd f outcome kind s := by
  simp [endFrame, h.frame, h.begun, h.other, h.outcome, hk]

theorem endsCycle_noteFault (b : List Byte) (outcome : FrameOutcome) (s : State) :
    endsCycle (noteFault b outcome (dropFrame s)) = endsCycle s := by
  simp [endsCycle, tableLength]

theorem advanced_noteFault (b : List Byte) (outcome : FrameOutcome) (s : State) :
    advanced (noteFault b outcome (dropFrame s)) = advanced s := by
  simp [advanced, nextPhase, nextCycle, endsCycle_noteFault]

theorem faultFrameEnd_inside (inside : endsCycle s = false) :
    faultFrameEnd f outcome kind s =
      afterReport s.ctr.aligned (raise (frameReport f kind s) (beforeReport f outcome s)) := by
  simp only [faultFrameEnd, afterReport]
  rw [phaseEnd_inside (by rw [endsCycle_noteFault, inside]) rfl rfl, advanced_noteFault]
  simp only [faultWork, errorsOf_eq_counted, noteFault_ctr, dropFrame_ctr, noteFault_flt, dropFrame_flt, Option.toList,
    raiseAll_cons, raiseAll_nil]
  rfl

@[simp] theorem beforeReport_stc : (beforeReport f outcome s).stc = s.stc := by simp [beforeReport]
@[simp] theorem beforeReport_lif : (beforeReport f outcome s).lif = s.lif := by simp [beforeReport]
@[simp] theorem beforeReport_cfg : (beforeReport f outcome s).cfg = s.cfg := by simp [beforeReport]
@[simp] theorem beforeReport_ctr : (beforeReport f outcome s).ctr = advanced s := rfl
@[simp] theorem beforeReport_rxu : (beforeReport f outcome s).rxu = { s.rxu with segBuf := [] } := by
  simp [beforeReport, dropFrame]
@[simp] theorem beforeReport_pmn : (beforeReport f outcome s).pmn = (noteFault f.bytes outcome (dropFrame s)).pmn := rfl
@[simp] theorem beforeReport_flt :
    (beforeReport f outcome s).flt = countErrors (counted s.cfg.selection outcome (patternErrors f)) s.flt := rfl

@[simp] theorem afterReport_flt (aligned : Bool) (u : State) : (afterReport aligned u).flt = u.flt := by
  unfold afterReport; simp only; split_ifs <;> simp
@[simp] theorem afterReport_rxu (aligned : Bool) (u : State) : (afterReport aligned u).rxu = u.rxu := by
  unfold afterReport; simp only; split_ifs <;> simp
@[simp] theorem afterReport_pmn (aligned : Bool) (u : State) : (afterReport aligned u).pmn = u.pmn := by
  unfold afterReport; simp only; split_ifs <;> simp
@[simp] theorem afterReport_cfg (aligned : Bool) (u : State) : (afterReport aligned u).cfg = u.cfg := by
  unfold afterReport; simp only; split_ifs <;> simp
@[simp] theorem afterReport_table (aligned : Bool) (u : State) : (afterReport aligned u).ctr.table = u.ctr.table := by
  unfold afterReport; simp only; split_ifs <;> simp [enterListen, clearAlignment]

/-- A station that is not in COLD keeps its alignment over the start of the next phase. -/
theorem afterReport_tracked {aligned : Bool} {u : State} (h : u.stc.station ≠ .cold) :
    (afterReport aligned u).ctr.aligned = u.ctr.aligned ∧ (afterReport aligned u).ctr.c = u.ctr.c ∧
      (afterReport aligned u).ctr.p = u.ctr.p := by
  unfold afterReport
  cases aligned <;> simp [h]

/-- A station still in COLD is UNALIGNED after it (R45, R54). -/
theorem afterReport_cold {aligned : Bool} {u : State} (h : u.stc.station = .cold) :
    (afterReport aligned u).ctr.aligned = false ∧ (afterReport aligned u).ctr.p = 0 ∧ (afterReport aligned u).ctr.c = 0 := by
  unfold afterReport
  cases aligned <;> simp [h, enterListen, clearAlignment]

/-- The report leaves p, c, the alignment and the table as the advance left them. -/
theorem raise_tracked (o : Occurrence) (s : State) :
    (raise o s).ctr.table = s.ctr.table ∧ (raise o s).ctr.aligned = s.ctr.aligned ∧ (raise o s).ctr.p = s.ctr.p ∧
      (raise o s).ctr.c = s.ctr.c := by
  rcases raise_ctr s o with e | e <;> rw [e] <;> exact ⟨rfl, rfl, rfl, rfl⟩

theorem report_station_cold (h : LineFree s) :
    (raise (frameReport f kind s) (beforeReport f outcome s)).stc.station = .cold ↔
      s.stc.station = .cold ∧ ¬ Stops kind s := by
  have hoff : (beforeReport f outcome s).lif.tx = none := by simpa using h.1
  simpa [frameReport] using raise_station_cold (o := frameReport f kind s) hoff

end

end Sys2Proof.Machine

namespace Sys2Proof.Proofs

open Sys2Proof.Machine

/-- Settles O31: the outcome by the six checks, the sender of the fault, and the frame end of a frame with a fault. -/
theorem faultFrameRecorded : Obligations.FaultFrameRecorded := by
  refine ⟨checkFrame_iff, faultSender_eq_some, fun f outcome kind s hends hkind hlast => ?_⟩
  have hinside := endsCycle_eq_false hlast
  obtain ⟨htable, haligned, hp, hc⟩ := raise_tracked (frameReport f kind s) (beforeReport f outcome s)
  have hcold := report_station_cold (f := f) (outcome := outcome) (kind := kind) hends.free
  refine ⟨_, exec_frameEnd_free hends.free, ?_⟩
  rw [endFrame_fault hends hkind, faultFrameEnd_inside hinside]
  refine ⟨?_, ?_, ?_, ?_, ?_, ?_, ?_, ?_⟩
  · rw [afterReport_flt, raise_flt, beforeReport_flt, beforeReport_cfg]
    rfl
  · simp
  · intro a
    rw [afterReport_pmn, raise_pmn, beforeReport_pmn]
    simpa using noteFault_peers hkind f s.cfg.qualityCapture a (dropFrame s)
  · simp
  · simp
  · rw [afterReport_table, htable, beforeReport_ctr, advanced_inside hinside]
    split <;> rfl
  · intro hs
    obtain ⟨ha, hc', hp'⟩ := afterReport_tracked (aligned := s.ctr.aligned) fun h => hs (hcold.mp h).1
    rw [ha, hc', hp', haligned, hc, hp, beforeReport_ctr, advanced_inside hinside]
    split <;> simp
  · intro hs hu
    by_cases hstop : Stops kind s
    · obtain ⟨ha, hc', hp'⟩ := afterReport_tracked (aligned := s.ctr.aligned) fun h => (hcold.mp h).2 hstop
      rw [ha, hc', hp', haligned, hc, hp, beforeReport_ctr, advanced_inside hinside, if_pos hstop]
      simp [hu]
    · obtain ⟨ha, hp', hc'⟩ := afterReport_cold (aligned := s.ctr.aligned) (hcold.mpr ⟨hs, hstop⟩)
      rw [ha, hp', hc', if_neg hstop]
      exact ⟨rfl, rfl⟩

end Sys2Proof.Proofs
end

section
/-! SUPPORT. The transmit outcomes ECHO_CLEAN and ECHO_FAILURE, and the change of state that waits for the cut (R8, R10, R53, R57,
R59, R63, R99). -/

namespace Sys2Proof.Machine

variable {s : State}

/-! ### The change of state that waits -/

/-- Another change of state, or soft reset, waits. -/
def State.waiting (s : State) (e : Option Exit) (r : SoftReset) : State :=
  s.withStc { s.stc with pendingExit := e, softReset := r }

/-- The state with what waits put back (R59, R63). -/
theorem eq_waiting {e : Option Exit} (h : s.stc.pendingExit = e) : s = (withoutExit s).waiting e s.stc.softReset := by
  subst h; rfl

theorem waiting_self (s : State) : s.waiting s.stc.pendingExit s.stc.softReset = s := rfl

/-- With nothing waiting, the end of a transmission changes no state. -/
theorem finishExit_of_none (he : s.stc.pendingExit = none) (hr : s.stc.softReset ≠ .waiting) : finishExit s = s := by
  simp [finishExit, he, hr]

/-- A soft reset that waits takes effect (R63). -/
theorem finishExit_of_reset (h : s.stc.softReset = .waiting) : finishExit s = softResetState s := if_pos h

theorem finishExit_of_toConfig (he : s.stc.pendingExit = some .toConfig) (hr : s.stc.softReset ≠ .waiting) :
    finishExit s = enterConfig s := by
  simp [finishExit, he, hr]

theorem finishExit_of_toSilent (he : s.stc.pendingExit = some .toSilent) (hr : s.stc.softReset ≠ .waiting)
    (hs : stoppable s.stc.station = true) : finishExit s = enterSilent s := by
  simp [finishExit, he, hr, hs]

/-- A waiting change of state is made from the state that the end of the transmission leaves (R59). -/
theorem finishExit_entered {u : State} {e : Exit} (hw : u.stc.softReset ≠ .waiting)
    (hs : e = .toConfig ∨ stoppable u.stc.station = true) :
    Entered e u (finishExit (u.waiting (some e) u.stc.softReset)) := by
  cases e with
  | toConfig =>
    have hexit : (u.waiting (some .toConfig) u.stc.softReset).stc.pendingExit = some .toConfig := rfl
    rw [finishExit_of_toConfig hexit hw]
    refine ⟨rfl, rfl, rfl, rfl, rfl, rfl, fun x hx => ?_, rfl⟩
    cases x <;> simp [Part.Same, State.waiting] at hx ⊢
  | toSilent =>
    have hexit : (u.waiting (some .toSilent) u.stc.softReset).stc.pendingExit = some .toSilent := rfl
    rw [finishExit_of_toSilent hexit hw (hs.resolve_left nofun)]
    refine ⟨rfl, rfl, rfl, fun x hx => ?_, rfl⟩
    cases x <;> simp [Part.Same, State.waiting] at hx ⊢

/-- The soft reset keeps nothing of the blocks but the table, the recorded faults and the enables (R63). -/
theorem softResetState_congr {s t : State} (ctr : t.ctr.table = s.ctr.table ∧ t.ctr.digest = s.ctr.digest)
    (flt : t.flt.flags = s.flt.flags ∧ t.flt.first = s.flt.first) (enables : t.lpt.enables = s.lpt.enables)
    (cfg : t.cfg = s.cfg) (rest : t.rstLow = s.rstLow ∧ t.freeCount = s.freeCount ∧ t.pending = s.pending) :
    softResetState t = softResetState s := by
  obtain ⟨h1, h2⟩ := ctr
  obtain ⟨h3, h4⟩ := flt
  obtain ⟨h5, h6, h7⟩ := rest
  simp only [softResetState, h1, h2, h3, h4, enables, cfg, h5, h6, h7]

theorem exec_softReset_waiting (h : s.stc.softReset = .waiting) : exec .softReset s = .next (softResetState s) := by
  have : softResetDue s = true := by simp [softResetDue, h]
  exact if_pos this

/-! ### ECHO_CLEAN -/

theorem Transmission.clean_iff (x : Transmission) : x.clean = true ↔ x.mismatch = false ∧ x.bytes.length ≤ x.matched := by
  simp [Transmission.clean]

theorem exec_echoClean_clean {x : Transmission} (ht : s.lif.tx = some x) (hx : x.clean = true) :
    exec .echoClean s = .next (finishExit (reportClean (driverOff s))) := by
  have : exec .echoClean s = execEchoClean s := rfl
  simp only [this, execEchoClean, ht, if_pos hx]

theorem exec_echoClean_other {x : Transmission} (ht : s.lif.tx = some x) (hx : ¬ x.clean = true) :
    exec .echoClean s = .next s := by
  have : exec .echoClean s = execEchoClean s := rfl
  simp only [this, execEchoClean, ht, if_neg hx]

/-- What waits for the cut has no part in the report of a clean echo. -/
theorem reportClean_waiting (s : State) (e : Option Exit) (r : SoftReset) :
    reportClean (driverOff (s.waiting e r)) = (reportClean (driverOff s)).waiting e r := by
  have hs : (driverOff (s.waiting e r)).stc.station = (driverOff s).stc.station := rfl
  unfold reportClean
  rw [hs]
  cases (driverOff s).stc.station <;> rfl

/-- A clean echo keeps what a soft reset keeps. -/
theorem softResetState_reportClean (s : State) : softResetState (reportClean (driverOff s)) = softResetState s := by
  refine softResetState_congr ?_ (by simp) ?_ (by simp) (by simp)
  · unfold reportClean; split <;> exact ⟨rfl, rfl⟩
  · unfold reportClean; split <;> rfl

/-! ### The segment that counts as sent (R99) -/

/-- Two records of one tag are one record (R73). -/
theorem eq_of_tag {t : Txs} (hd : ((messages t).map Message.tag).Nodup) {m y : Message} (hm : m ∈ messages t)
    (hy : y ∈ messages t) (h : y.tag = m.tag) : y = m :=
  List.inj_on_of_nodup_map hd hy hm h

/-- The records of a tag are the one record that holds it. -/
theorem filter_tag {t : Txs} (hd : ((messages t).map Message.tag).Nodup) {m : Message} (hm : m ∈ messages t) :
    (messages t).filter (fun x => x.tag == m.tag) = [m] := by
  have hcongr : (messages t).filter (fun x => x.tag == m.tag) = (messages t).filter (· == m) := by
    refine List.filter_congr fun x hx => ?_
    rw [Bool.eq_iff_iff, beq_iff_eq, beq_iff_eq]
    exact ⟨eq_of_tag hd hm hx, fun h => h ▸ rfl⟩
  rw [hcongr, List.filter_beq, List.count_eq_one_of_mem (List.Nodup.of_map _ hd) hm]
  rfl

theorem findMessage_of_mem {t : Txs} (hd : ((messages t).map Message.tag).Nodup) {m : Message} (hm : m ∈ messages t) :
    findMessage m.tag t = some m := by
  cases h : findMessage m.tag t with
  | none => exact absurd (List.find?_eq_none.mp h m hm) (by simp)
  | some y =>
    obtain ⟨hy, ht⟩ := findMessage_some h
    rw [eq_of_tag hd hm hy ht]

/-- A STARTED record has its number and its segments sent in its state (R74). -/
theorem state_of_isStarted {m : Message} (h : m.isStarted = true) : m.state = .started (m.number.getD 0) m.sent := by
  cases hs : m.state <;> simp [Message.isStarted, Message.number, Message.sent, hs] at h ⊢

/-- A FILL frame, or no frame in flight, changes nothing more (R99). -/
theorem txsEchoClean_fill {t : Txs} (h : t.inFlight = none ∨ t.inFlight = some .fill) :
    txsEchoClean t = { t with inFlight := none } := by
  rcases h with h | h <;> simp [txsEchoClean, h]

theorem txsEchoClean_kept (t : Txs) :
    (txsEchoClean t).inFlight = none ∧ (txsEchoClean t).stack = t.stack ∧ (txsEchoClean t).numbers = t.numbers ∧
      (txsEchoClean t).staging = t.staging := by
  unfold txsEchoClean
  split
  · split
    · split <;> exact ⟨rfl, rfl, rfl, rfl⟩
    · exact ⟨rfl, rfl, rfl, rfl⟩
  · exact ⟨rfl, rfl, rfl, rfl⟩

/-- A segment that is not the last: its record has one more segment sent. -/
theorem txsEchoClean_segment {t : Txs} {m : Message} {index : Nat} (hd : ((messages t).map Message.tag).Nodup)
    (hf : t.inFlight = some (.data m.tag index false)) (hm : m ∈ messages t) (hs : m.isStarted = true)
    (hi : m.sent = index) :
    txsEchoClean t = { t with
      inFlight := none
      queues := t.queues.map fun q => q.map fun y =>
        if y.tag = m.tag then { y with state := .started (y.number.getD 0) (index + 1) } else y } := by
  simp only [txsEchoClean, hf, findMessage_of_mem hd hm, updateMessage, Bool.false_eq_true, if_false, beq_iff_eq]
  congr 1
  refine Vector.map_congr_left fun q hq => List.map_congr_left fun y hy => ?_
  have hy : y ∈ messages t := List.mem_flatten.mpr ⟨q, by simpa using hq, hy⟩
  split
  · next ht =>
    obtain rfl := eq_of_tag hd hm hy ht
    rw [state_of_isStarted hs, hi]
  · rfl

/-- A last segment ends its message as SENT: the record leaves its queue, and its pool blocks return (R71, R79). -/
theorem txsEchoClean_last {t : Txs} {m : Message} {index : Nat} (hd : ((messages t).map Message.tag).Nodup)
    (hf : t.inFlight = some (.data m.tag index true)) (hm : m ∈ messages t) :
    txsEchoClean t = { t with
      inFlight := none
      current := none
      queues := t.queues.map fun q => q.filter fun y => y.tag != m.tag
      free := t.free + m.blocks.length
      completions := t.completions ++ [⟨m.tag, m.cls, .sent⟩] } := by
  have hsame : messages { t with inFlight := none } = messages t := rfl
  simp only [txsEchoClean, hf, findMessage_of_mem hd hm, depart, hsame, filter_tag hd hm, if_true]
  simp [Message.held]

/-- ECHO CLEAN in ACTIVE (R10, R99). -/
theorem reportClean_active (h : s.stc.station = .active) :
    reportClean s = driveSub ((s.withLif { s.lif with echoFailures := 0 }).withTxs (txsEchoClean s.txs)) := by
  simp only [reportClean, h]

/-- ECHO CLEAN in COLD (R35). -/
theorem reportClean_cold (h : s.stc.station = .cold) :
    reportClean s = s.withCtr { s.ctr with coldAlignPending := true } := by
  simp only [reportClean, h]

theorem driveSub_lpt (s : State) :
    (driveSub s).lpt = { s.lpt with subReq := subLevel s.cfg.subMode s.lpt.subReq s.txs.free } := by
  rw [← subNext_eq]; rfl

/-! ### ECHO_FAILURE that stops nothing (R8, R10, R53, R57) -/

/-- The state after an echo failure whose ECHO fault is masked or NOTED, before any change of state that waits. -/
def afterFailure (x : Transmission) (s : State) : State :=
  (reportFailure (driverOff s)).withFlt (recorded s.cfg.masks (echoOccurrence x s) s.flt)

theorem echoFailureWith_calm (x : Transmission) (h : ¬ Stops .echo s) :
    echoFailureWith false x s = afterFailure x s := by
  have hcalm : ¬ Stops (echoOccurrence x s).kind (reportFailure (driverOff s)) := by
    simpa [echoOccurrence] using h
  simp only [echoFailureWith, afterFailure, Bool.false_eq_true, if_false, raise_calm hcalm, reportFailure_cfg,
    driverOff_cfg, reportFailure_flt, driverOff_flt]

theorem exec_echoFailure_calm {x : Transmission} (ht : s.lif.tx = some x)
    (hx : x.mismatch = true ∨ x.matched < x.bytes.length) (h : ¬ Stops .echo s) :
    exec .echoFailure s = .next (finishExit (afterFailure x s)) := by
  have hexec : exec .echoFailure s = execEchoFailure s := rfl
  have hclean : ¬ x.clean = true := by
    rw [x.clean_iff]
    rintro ⟨hm, hl⟩
    rcases hx with hx | hx
    · simp [hm] at hx
    · omega
  have hstops : ¬ echoStops s = true := by simpa [echoStops, Stops] using h
  simp only [hexec, execEchoFailure, ht, if_neg hclean, if_neg hstops, echoFailureWith_calm x h]

/-- The fourth failure in a row in ACTIVE moves the station to SILENT (R57). -/
theorem reportFailure_active_fourth (h : s.stc.station = .active) (hn : 3 ≤ s.lif.echoFailures) :
    reportFailure s =
      enterSilent ((s.withTxs (txsDropFlight s.txs)).withLif { s.lif with echoFailures := 0 }) := by
  simp only [reportFailure, h]
  exact if_pos hn

/-- A failure before the fourth in a row in ACTIVE raises the count and sets HOLD (R10, R42). -/
theorem reportFailure_active (h : s.stc.station = .active) (hn : s.lif.echoFailures < 3) :
    reportFailure s =
      ((s.withTxs (txsDropFlight s.txs)).withLif { s.lif with echoFailures := s.lif.echoFailures + 1 }).withCtr
        { s.ctr with hold := true } := by
  simp only [reportFailure, h]
  exact if_neg (Nat.not_le.mpr hn)

/-- The eighth failed attempt in COLD moves the station to SILENT (R53). -/
theorem reportFailure_cold_eighth (h : s.stc.station = .cold) (hn : 7 ≤ s.stc.coldAttempts) :
    reportFailure s = enterSilent (s.withStc { s.stc with coldAttempts := 0 }) := by
  simp only [reportFailure, h, if_pos hn]

/-- A failed attempt before the eighth returns the station to LISTEN (R53). -/
theorem reportFailure_cold (h : s.stc.station = .cold) (hn : s.stc.coldAttempts < 7) :
    reportFailure s = enterListen (s.withStc { s.stc with coldAttempts := s.stc.coldAttempts + 1 }) := by
  simp only [reportFailure, h, if_neg (Nat.not_le.mpr hn)]

theorem reportFailure_other (h1 : s.stc.station ≠ .active) (h2 : s.stc.station ≠ .cold) : reportFailure s = s := by
  unfold reportFailure
  split
  · exact absurd ‹_› h1
  · exact absurd ‹_› h2
  all_goals rfl

/-- What holds of each outcome of an echo failure holds of the failure. -/
theorem reportFailure_induct {P : State → Prop} (s : State)
    (active : s.stc.station = .active → s.lif.echoFailures < 3 →
      P (((s.withTxs (txsDropFlight s.txs)).withLif { s.lif with echoFailures := s.lif.echoFailures + 1 }).withCtr
        { s.ctr with hold := true }))
    (fourth : s.stc.station = .active → 3 ≤ s.lif.echoFailures →
      P (enterSilent ((s.withTxs (txsDropFlight s.txs)).withLif { s.lif with echoFailures := 0 })))
    (cold : s.stc.station = .cold → s.stc.coldAttempts < 7 →
      P (enterListen (s.withStc { s.stc with coldAttempts := s.stc.coldAttempts + 1 })))
    (eighth : s.stc.station = .cold → 7 ≤ s.stc.coldAttempts →
      P (enterSilent (s.withStc { s.stc with coldAttempts := 0 })))
    (other : s.stc.station ≠ .active → s.stc.station ≠ .cold → P s) : P (reportFailure s) := by
  by_cases ha : s.stc.station = .active
  · rcases Nat.lt_or_ge s.lif.echoFailures 3 with hn | hn
    · rw [reportFailure_active ha hn]; exact active ha hn
    · rw [reportFailure_active_fourth ha hn]; exact fourth ha hn
  · by_cases hc : s.stc.station = .cold
    · rcases Nat.lt_or_ge s.stc.coldAttempts 7 with hn | hn
      · rw [reportFailure_cold hc hn]; exact cold hc hn
      · rw [reportFailure_cold_eighth hc hn]; exact eighth hc hn
    · rw [reportFailure_other ha hc]; exact other ha hc

/-- Of the Line Interface a failure changes the echo failure count alone. -/
theorem reportFailure_lif (s : State) :
    (reportFailure s).lif = { s.lif with echoFailures := (reportFailure s).lif.echoFailures } :=
  reportFailure_induct (P := fun t => t.lif = { s.lif with echoFailures := t.lif.echoFailures }) s
    (fun _ _ => rfl) (fun _ _ => rfl) (fun _ _ => rfl) (fun _ _ => rfl) (fun _ _ => rfl)

/-- The driver goes OFF, and the receiver stays (R8). -/
theorem afterFailure_lif (x : Transmission) (s : State) :
    (afterFailure x s).lif.tx = none ∧ (afterFailure x s).lif.receiver = s.lif.receiver := by
  have h : (afterFailure x s).lif = (reportFailure (driverOff s)).lif := rfl
  rw [h, reportFailure_lif]
  exact ⟨rfl, rfl⟩

/-- What waits for the cut has no part in a failure, but that an entry to SILENT leaves a waiting LEAVE alone (R59). -/
theorem reportFailure_waiting (s : State) (e : Option Exit) (r : SoftReset) :
    ∃ e', reportFailure (s.waiting e r) = (reportFailure s).waiting e' r ∧
      (s.stc.station = .active ∨ s.stc.station = .cold →
        e' = if (reportFailure s).stc.station = .silent then e.filter (· == .toConfig) else e) := by
  by_cases ha : s.stc.station = .active
  · by_cases hn : s.lif.echoFailures < 3
    · have hw := reportFailure_active (s := s.waiting e r) ha hn
      have h := reportFailure_active ha hn
      refine ⟨e, by rw [hw, h]; rfl, fun _ => ?_⟩
      rw [h]
      exact (if_neg (show ¬ s.stc.station = .silent by simp [ha])).symm
    · have hw := reportFailure_active_fourth (s := s.waiting e r) ha (Nat.le_of_not_lt hn)
      have h := reportFailure_active_fourth ha (Nat.le_of_not_lt hn)
      exact ⟨_, by rw [hw, h]; rfl, fun _ => by rw [h]; rfl⟩
  · by_cases hc : s.stc.station = .cold
    · by_cases hn : s.stc.coldAttempts < 7
      · have hw := reportFailure_cold (s := s.waiting e r) hc hn
        have h := reportFailure_cold hc hn
        exact ⟨e, by rw [hw, h]; rfl, fun _ => by rw [h]; rfl⟩
      · have hw := reportFailure_cold_eighth (s := s.waiting e r) hc (Nat.le_of_not_lt hn)
        have h := reportFailure_cold_eighth hc (Nat.le_of_not_lt hn)
        exact ⟨_, by rw [hw, h]; rfl, fun _ => by rw [h]; rfl⟩
    · refine ⟨e, ?_, fun h => (h.elim ha hc).elim⟩
      rw [reportFailure_other ha hc, reportFailure_other (s := s.waiting e r) ha hc]

theorem afterFailure_waiting (x : Transmission) (s : State) (e : Option Exit) (r : SoftReset) :
    ∃ e', afterFailure x (s.waiting e r) = (afterFailure x s).waiting e' r ∧
      (s.stc.station = .active ∨ s.stc.station = .cold →
        e' = if (afterFailure x s).stc.station = .silent then e.filter (· == .toConfig) else e) := by
  obtain ⟨e', h, he⟩ := reportFailure_waiting (driverOff s) e r
  refine ⟨e', ?_, he⟩
  have hoff : driverOff (s.waiting e r) = (driverOff s).waiting e r := rfl
  unfold afterFailure
  rw [hoff, h]
  rfl

/-- A failure in ACTIVE or COLD leads to ACTIVE, LISTEN or SILENT. -/
theorem reportFailure_stoppable (hs : s.stc.station = .active ∨ s.stc.station = .cold)
    (h : (reportFailure s).stc.station ≠ .silent) : stoppable (reportFailure s).stc.station = true := by
  refine reportFailure_induct (P := fun t => t.stc.station ≠ .silent → stoppable t.stc.station = true) s
    (fun ha _ _ => ?_) (fun _ _ hn => absurd rfl hn) (fun _ _ _ => rfl) (fun _ _ hn => absurd rfl hn)
    (fun ha hc => (hs.elim ha hc).elim) h
  show stoppable s.stc.station = true
  rw [ha]; rfl

@[simp] theorem reportFailure_softReset (s : State) : (reportFailure s).stc.softReset = s.stc.softReset :=
  reportFailure_induct (P := fun t => t.stc.softReset = s.stc.softReset) s
    (fun _ _ => rfl) (fun _ _ => rfl) (fun _ _ => rfl) (fun _ _ => rfl) (fun _ _ => rfl)

theorem reportFailure_pendingExit (h : s.stc.pendingExit = none) : (reportFailure s).stc.pendingExit = none :=
  reportFailure_induct (P := fun t => t.stc.pendingExit = none) s
    (fun _ _ => h) (fun _ _ => congrArg (Option.filter _) h) (fun _ _ => h) (fun _ _ => congrArg (Option.filter _) h)
    (fun _ _ => h)

@[simp] theorem afterFailure_softReset (x : Transmission) (s : State) :
    (afterFailure x s).stc.softReset = s.stc.softReset := reportFailure_softReset _

theorem afterFailure_pendingExit (x : Transmission) (h : s.stc.pendingExit = none) :
    (afterFailure x s).stc.pendingExit = none := reportFailure_pendingExit (s := driverOff s) h

/-- With nothing waiting, an echo failure ends where its report leaves the state. -/
theorem exec_echoFailure_alone {x : Transmission} (ht : s.lif.tx = some x)
    (hx : x.mismatch = true ∨ x.matched < x.bytes.length) (h : ¬ Stops .echo s) (he : s.stc.pendingExit = none)
    (hr : s.stc.softReset ≠ .waiting) : exec .echoFailure s = .next (afterFailure x s) := by
  rw [exec_echoFailure_calm ht hx h,
    finishExit_of_none (afterFailure_pendingExit x he) (by rwa [afterFailure_softReset])]

theorem withoutExit_softReset_ne (s : State) : (withoutExit s).stc.softReset ≠ .waiting := by
  unfold withoutExit
  simp only
  split
  · exact nofun
  · assumption

theorem any_owner_iff (table : List PhaseEntry) (a : Addr) :
    (table.any fun e => e.owner == a) = true ↔ ∃ e ∈ table, e.owner = a := by
  simp

end Sys2Proof.Machine

namespace Sys2Proof.Proofs

open Sys2Proof.Machine

/-- Settles O45: the report of a clean echo by station state, then the change of state or the soft reset that waits. -/
theorem echoClean : Obligations.EchoClean := by
  intro x s ht
  refine ⟨?_, ?_, ?_, ?_⟩
  · intro h
    refine exec_echoClean_other ht fun hx => ?_
    obtain ⟨hm, hl⟩ := x.clean_iff.mp hx
    rcases h with h | h
    · simp [hm] at h
    · omega
  · intro hm hl he hr
    have hx := x.clean_iff.mpr ⟨hm, hl⟩
    have hstay : finishExit (reportClean (driverOff s)) = reportClean (driverOff s) :=
      finishExit_of_none (by simpa using he) (by simpa using hr)
    rw [exec_echoClean_clean ht hx, hstay]
    refine ⟨fun hs => ?_, fun hs hinv => ⟨_, rfl, ?_⟩⟩
    · rw [reportClean_cold (s := driverOff s) hs]
      rfl
    · have hd := hinv.records.tags
      obtain ⟨hflight, hstack, hnumbers, hstaging⟩ := txsEchoClean_kept s.txs
      rw [reportClean_active (s := driverOff s) hs]
      refine ⟨rfl, hflight, hstack, hnumbers, hstaging, txsEchoClean_fill, ?_, ?_, driveSub_lpt _, fun y hy => ?_, rfl⟩
      · intro tag index hf
        obtain ⟨-, m, hfind, hi, hstarted, -⟩ := hinv.follows tag index false hf
        obtain ⟨hmem, rfl⟩ := findMessage_some hfind
        have hsent := txsEchoClean_segment hd hf hmem hstarted hi
        simp only [driveSub_txs, State.withTxs_txs, driverOff_txs, hsent, and_self]
      · rintro tag index m hf hm rfl
        have hlast := txsEchoClean_last hd hf (mem_messages.mpr hm)
        simp only [driveSub_txs, State.withTxs_txs, driverOff_txs, hlast, and_self]
      · cases y <;> simp [Part.Same] at hy ⊢
  · intro e hm hl he hr hs
    have hx := x.clean_iff.mpr ⟨hm, hl⟩
    have hstc : (reportClean (driverOff (withoutExit s))).stc = (withoutExit s).stc := by simp
    have hreset : (withoutExit s).stc.softReset = s.stc.softReset := if_neg hr
    have hreport : reportClean (driverOff s) =
        (reportClean (driverOff (withoutExit s))).waiting (some e)
          (reportClean (driverOff (withoutExit s))).stc.softReset := by
      rw [hstc, hreset, ← reportClean_waiting, ← eq_waiting he]
    refine ⟨reportClean (driverOff (withoutExit s)), _, ?_, exec_echoClean_clean ht hx, ?_⟩
    · have hnone : (reportClean (driverOff (withoutExit s))).stc.pendingExit = none := by rw [hstc]; rfl
      rw [exec_echoClean_clean (s := withoutExit s) ht hx, finishExit_of_none hnone (by rwa [hstc, hreset])]
    · rw [hreport]
      refine finishExit_entered (by rwa [hstc, hreset]) (.inr ?_)
      rw [hstc]
      show stoppable s.stc.station = true
      rcases hs with hs | hs <;> rw [hs] <;> rfl
  · intro hm hl hr
    have hx := x.clean_iff.mpr ⟨hm, hl⟩
    have hwait : (reportClean (driverOff s)).stc.softReset = .waiting := by simpa using hr
    rw [exec_echoClean_clean ht hx, finishExit_of_reset hwait, softResetState_reportClean, exec_softReset_waiting hr]

/-- Settles O46: the report of the failure by station state, then the change of state or the soft reset that waits. -/
theorem echoFailure : Obligations.EchoFailure := by
  intro x s ht hx hcalm
  have halone : exec .echoFailure (withoutExit s) = .next (afterFailure x (withoutExit s)) :=
    exec_echoFailure_alone (s := withoutExit s) ht hx hcalm rfl (withoutExit_softReset_ne s)
  refine ⟨?_, ?_, ?_⟩
  · intro e he hr hs
    have hreset : (withoutExit s).stc.softReset = s.stc.softReset := if_neg hr
    obtain ⟨e', hwait, he'⟩ := afterFailure_waiting x (withoutExit s) (some e) s.stc.softReset
    rw [← eq_waiting he, ← hreset, ← afterFailure_softReset x] at hwait
    have hne : (afterFailure x (withoutExit s)).stc.softReset ≠ .waiting := by
      rw [afterFailure_softReset]; exact withoutExit_softReset_ne s
    refine ⟨_, _, halone, exec_echoFailure_calm ht hx hcalm, ?_, ?_⟩
    · intro hcase
      have hsome : e' = some e := by
        rw [he' hs]
        split
        · next hsilent => rw [hcase.resolve_right (not_not.mpr hsilent)]; rfl
        · rfl
      rw [hwait, hsome]
      exact finishExit_entered hne (hcase.imp_right (reportFailure_stoppable (s := driverOff (withoutExit s)) hs))
    · rintro rfl hsilent
      have hnone : e' = none := by rw [he' hs, if_pos hsilent]; rfl
      have hexit := afterFailure_pendingExit x (s := withoutExit s) rfl
      rw [hwait, hnone, ← hexit, waiting_self, finishExit_of_none hexit hne]
  · intro hr
    obtain ⟨e', hwait, -⟩ := afterFailure_waiting x (withoutExit s) s.stc.pendingExit s.stc.softReset
    rw [← eq_waiting rfl] at hwait
    have hreset : (afterFailure x s).stc.softReset = .waiting := by rw [afterFailure_softReset, hr]
    refine ⟨_, halone, ?_⟩
    rw [exec_echoFailure_calm ht hx hcalm, finishExit_of_reset hreset, exec_softReset_waiting (s := resetWaiting _) rfl,
      hwait]
    rfl
  · intro he hr
    obtain ⟨hdriver, hreceiver⟩ := afterFailure_lif x s
    refine ⟨_, exec_echoFailure_alone ht hx hcalm he hr, hdriver, hreceiver, rfl, ?_, ?_, ?_, ?_, fun y hy => ?_, ?_⟩
    · rintro ⟨hs, hn⟩
      rw [afterFailure, reportFailure_active (s := driverOff s) hs (Nat.lt_succ_of_le hn)]
      exact ⟨rfl, rfl, rfl, rfl⟩
    · rintro ⟨hs, hn⟩
      rw [afterFailure, reportFailure_active_fourth (s := driverOff s) hs hn.ge]
      exact ⟨rfl, rfl, rfl, rfl, rfl⟩
    · rintro ⟨hs, hn⟩
      rw [afterFailure, reportFailure_cold (s := driverOff s) hs (Nat.lt_succ_of_le hn)]
      refine ⟨rfl, rfl, ?_, rfl⟩
      simp only [← any_owner_iff]
      rfl
    · rintro ⟨hs, hn⟩
      rw [afterFailure, reportFailure_cold_eighth (s := driverOff s) hs hn.ge]
      exact ⟨rfl, rfl, rfl, rfl⟩
    · cases y <;> simp [Part.Same, afterFailure] at hy ⊢
    · simp [afterFailure]

end Sys2Proof.Proofs
end

section
/-! SUPPORT. FILL and COLD frames as they are built and read back: the CRC-16, the fill pattern, the layout and the fields (R12,
R14 to R18, R20, R22). -/

namespace Sys2Proof.Machine

/-! ### Runs of register steps -/

/-- A fold makes one step for each item of its list. -/
theorem steps_foldl {α β : Type} {step : β → α → α → Prop} {g : α → β → α} (hg : ∀ b x, step b x (g x b)) (l : List β)
    (x : α) : Steps step l x (l.foldl g x) := by
  induction l generalizing x with
  | nil => rfl
  | cons b l ih => exact ⟨g x b, hg b x, ih _⟩

/-! ### The CRC-16 (R16) -/

theorem crcStep_crcBit (d : Bool) (r : Half) : CrcStep d r (crcBit r d) := by
  have hbit : r.getLsbD 0 = d ↔ r.toNat % 2 = d.toNat := by
    rw [BitVec.getLsbD, Nat.testBit_zero]
    rcases Nat.mod_two_eq_zero_or_one r.toNat with h | h <;> cases d <;> simp [h]
  have hshift : (r >>> 1).toNat = r.toNat / 2 := by
    rw [BitVec.toNat_ushiftRight, Nat.shiftRight_eq_div_pow, pow_one]
  unfold CrcStep crcBit
  simp only [hbit]
  split
  · exact hshift
  · rw [BitVec.toNat_xor, hshift]; rfl

theorem crcByte_eq (r : Half) (b : Byte) : crcByte r b = (lineBits b).foldl crcBit r := by
  rw [lineBits, List.foldl_map]; rfl

theorem crc16_eq (bytes : List Byte) : crc16 bytes = (bytes.flatMap lineBits).foldl crcBit 0xFFFF := by
  rw [List.foldl_flatMap, crc16]
  exact congrArg (fun g => bytes.foldl g 0xFFFF) (funext₂ crcByte_eq)

/-! ### The fill pattern (R17) -/

theorem patternStep_patternNext (r : BitVec 15) : PatternStep (patternBit r) r (patternNext r) := by
  refine ⟨by simp [patternBit, bne], ?_⟩
  have hshift : (r <<< 1).toNat = 2 * r.toNat % 2 ^ 15 := by
    rw [BitVec.toNat_shiftLeft, Nat.shiftLeft_eq, Nat.mul_comm]
  have heven : 2 * r.toNat % 2 ^ 15 = 2 * (r.toNat % 2 ^ 14) := by omega
  rw [patternNext, BitVec.toNat_or, hshift, heven]
  cases patternBit r
  · simp
  · exact (Nat.two_pow_add_eq_or_of_lt (i := 1) (by decide) _).symm

theorem patternOutputs_length (n : Nat) (r : BitVec 15) : (patternOutputs n r).length = n := by
  induction n generalizing r with
  | zero => rfl
  | succ n ih => rw [patternOutputs, List.length_cons, ih]

theorem steps_patternOutputs (n : Nat) (r : BitVec 15) : ∃ r', Steps PatternStep (patternOutputs n r) r r' := by
  induction n generalizing r with
  | zero => exact ⟨r, rfl⟩
  | succ n ih =>
    obtain ⟨r', h⟩ := ih (patternNext r)
    exact ⟨r', _, patternStep_patternNext r, h⟩

theorem testBit_byteOfBits (l : List Bool) (i : Nat) : (byteOfBits l).testBit i = l.getD i false := by
  induction l generalizing i with
  | nil => simp [byteOfBits]
  | cons b l ih =>
    cases i with
    | zero => cases b <;> simp [byteOfBits, Nat.testBit_zero]
    | succ i =>
      have hhalf : (b.toNat + 2 * byteOfBits l) / 2 = byteOfBits l := by cases b <;> simp; omega
      rw [byteOfBits, Nat.testBit_succ, hhalf, ih]
      rfl

/-- Eight bits made a byte stand on the line as they were. -/
theorem lineBits_byteOfBits {l : List Bool} (h : l.length = 8) : lineBits (BitVec.ofNat 8 (byteOfBits l)) = l := by
  refine List.ext_getElem (by simp [lineBits, h]) fun i hi hl => ?_
  have hi8 : i < 8 := h ▸ hl
  rw [show (lineBits _)[i] = (BitVec.ofNat 8 (byteOfBits l)).getLsbD i by simp [lineBits], BitVec.getLsbD_ofNat,
    testBit_byteOfBits]
  simp [hi8, hl]

theorem bytesOfBits_length (n : Nat) (l : List Bool) : (bytesOfBits n l).length = n := by
  induction n generalizing l with
  | zero => rfl
  | succ n ih => rw [bytesOfBits, List.length_cons, ih]

/-- Bits cut into bytes stand on the line as they were. -/
theorem bytesOfBits_lineBits {n : Nat} {l : List Bool} (h : l.length = 8 * n) : (bytesOfBits n l).flatMap lineBits = l := by
  induction n generalizing l with
  | zero => exact (List.eq_nil_of_length_eq_zero h).symm
  | succ n ih =>
    rw [bytesOfBits, List.flatMap_cons, lineBits_byteOfBits (by simp; omega), ih (by simp; omega), List.take_append_drop]

theorem patternBytes_length (sender : Addr) (cycle : Cycle) : (patternBytes sender cycle).length = 8 := bytesOfBits_length ..

theorem patternBytes_lineBits (sender : Addr) (cycle : Cycle) :
    (patternBytes sender cycle).flatMap lineBits = patternOutputs 64 (patternSeed sender cycle) :=
  bytesOfBits_lineBits (patternOutputs_length ..)

/-! ### The pattern error count (R18) -/

theorem bitDifference_eq (a b : Byte) : bitDifference a b = (lineBits (a ^^^ b)).count true := by
  rw [lineBits, List.count_eq_countP, List.countP_map, List.countP_eq_length_filter, bitDifference]
  congr 2
  funext i
  simp [bne]

theorem patternDifference_eq (chs : List RxChar) (bs : List Byte) :
    patternDifference chs bs = (List.zipWith patternAdds chs bs).sum := by
  induction chs generalizing bs with
  | nil => rfl
  | cons ch chs ih =>
    cases bs with
    | nil => rfl
    | cons b bs => rw [patternDifference, List.zipWith_cons_cons, List.sum_cons, ih, patternAdds, bitDifference_eq]

theorem patternCompared_iff (f : Gather) : patternCompared f = true ↔ PatternCompared f := by
  have hbytes : f.chars.map RxChar.data = f.bytes := rfl
  unfold patternCompared PatternCompared leadByte
  simp only [hbytes, Bool.and_eq_true, Bool.or_eq_true, beq_iff_eq, kindOf_eq_fill, kindOf_eq_cold, List.all_eq_true,
    and_assoc]
  refine and_congr_right fun hlen => and_congr_right fun _ => and_congr_right fun hkind => and_congr_right fun _ => ?_
  refine crcOk_iff ?_
  rw [coveredLength_eq, if_neg (by omega), f.bytes_length, hlen]
  omega

theorem patternErrors_of_compared {f : Gather} (h : PatternCompared f) :
    patternErrors f =
      some (List.zipWith patternAdds (f.chars.drop 7) (patternBytes (senderOf f.bytes) (cycleOf f.bytes))).sum := by
  rw [patternErrors, if_pos ((patternCompared_iff f).mpr h), patternDifference_eq]

theorem patternErrors_of_not_compared {f : Gather} (h : ¬ PatternCompared f) : patternErrors f = none :=
  if_neg (mt (patternCompared_iff f).mp h)

/-! ### Frames received as they were built -/

/-- The frame that the receiver gathers from bytes that arrive without a framing error. -/
def heard (bytes : List Byte) (own begun aligned : Bool) : Gather :=
  ⟨bytes.map fun b => ⟨b, true⟩, own, begun, aligned, false⟩

section

variable {bytes covered rest : List Byte} {own begun aligned on : Bool} {table : List PhaseEntry} {digest : Byte}

@[simp] theorem heard_bytes : (heard bytes own begun aligned).bytes = bytes := by
  simp [heard, Gather.bytes, Function.comp_def]

theorem heard_not_framing : ¬ FramingFault (heard bytes own begun aligned) := by
  simp [FramingFault, heard]

/-- A frame received without framing error is clean where the other five checks pass. -/
theorem checkFrame_heard_clean (hs : ¬ StructureFault bytes) (hc : ¬ CrcFault bytes) (hv : ¬ ValuesFault table bytes)
    (hd : byteAt bytes 4 = digest) (ho : ¬ ForeignFault table bytes) :
    checkFrame table digest (heard bytes own begun aligned) = .clean := by
  rw [checkFrame_iff]
  have hbytes : (heard bytes own begun aligned).chars.map RxChar.data = bytes := heard_bytes
  simp only [OutcomeByChecks, hbytes]
  exact ⟨heard_not_framing, hs, hc, hv, hd, ho⟩

/-- A frame received without framing error is CRC where its structure is right and its CRC is not. -/
theorem checkFrame_heard_crc (hs : ¬ StructureFault bytes) (hc : CrcFault bytes) :
    checkFrame table digest (heard bytes own begun aligned) = .crc := by
  rw [checkFrame_iff]
  have hbytes : (heard bytes own begun aligned).chars.map RxChar.data = bytes := heard_bytes
  simp only [OutcomeByChecks, hbytes]
  exact ⟨heard_not_framing, hs, hc⟩

/-- The two CRC bytes as they are built, in numbers: the low byte first, inverted by the insertion (R15, R16, R22). -/
theorem insertCrc_toNat (on : Bool) (covered : List Byte) :
    (insertCrc on (crcBytes covered)).map BitVec.toNat =
      [if on then 255 - (crc16 covered).toNat % 256 else (crc16 covered).toNat % 256, (crc16 covered).toNat / 256] := by
  cases on <;> simp [insertCrc, crcBytes, lowByte_toNat, highByte_toNat, BitVec.toNat_not]

theorem insertCrc_length (on : Bool) (covered : List Byte) : (insertCrc on (crcBytes covered)).length = 2 := by
  cases on <;> rfl

/-- The bytes that the CRC covers stand after the lead. -/
theorem covered_built (lead : Byte) (covered rest : List Byte) :
    ((lead :: covered ++ rest).drop 1).take covered.length = covered := by
  simp

/-- A built frame fails the CRC check exactly with the CRC insertion (R16, R22). -/
theorem crcFault_built (h : (if (byteAt (leadByte :: covered ++ insertCrc on (crcBytes covered) ++ rest) 1).toNat / 32 = 1
      then 7 + (byteAt (leadByte :: covered ++ insertCrc on (crcBytes covered) ++ rest) 7).toNat else 4) = covered.length) :
    CrcFault (leadByte :: covered ++ insertCrc on (crcBytes covered) ++ rest) ↔ on = true := by
  have hcovered : ((leadByte :: covered ++ insertCrc on (crcBytes covered) ++ rest).drop 1).take covered.length = covered := by
    rw [List.append_assoc]; exact covered_built _ _ _
  have hlow : byteAt (leadByte :: covered ++ insertCrc on (crcBytes covered) ++ rest) (covered.length + 1) =
      if on then ~~~lowByte (crc16 covered) else lowByte (crc16 covered) := by
    cases on <;> simp [byteAt, insertCrc, crcBytes]
  have hhigh : byteAt (leadByte :: covered ++ insertCrc on (crcBytes covered) ++ rest) (covered.length + 2) =
      highByte (crc16 covered) := by
    cases on <;> simp [byteAt, insertCrc, crcBytes]
  simp only [CrcFault, h, hcovered, hlow, hhigh, highByte_toNat]
  cases on
  · simp [lowByte_toNat]
  · simp [lowByte_toNat, BitVec.toNat_not]
    omega

end

/-! ### FILL and COLD frames (R12, R14, R22) -/

section

variable (kind : FrameKind) (sender : Addr) (phase : Phase) (cycle : Cycle) (digest : Byte) (ins : Insertions)

theorem headerBytes_toNat :
    (headerBytes kind sender phase cycle digest).map BitVec.toNat =
      [kind.code * 32 + sender.val, phase.val, cycle.toNat, digest.toNat] := by
  have hs := sender.isLt
  have hp := phase.isLt
  have hk : kind.code ≤ 3 := by cases kind <;> decide
  simp [headerBytes]
  omega

@[simp] theorem insertPattern_length (on : Bool) (l : List Byte) : (insertPattern on l).length = l.length := by
  cases on <;> cases l <;> rfl

/-- Bit 0 of a byte inverted is the first of its line bits inverted. -/
theorem lineBits_xor_one (b : Byte) :
    ∃ x rest, lineBits b = x :: rest ∧ lineBits (b ^^^ 1) = (!x) :: rest := by
  refine ⟨b.getLsbD 0, (List.range 7).map fun i => b.getLsbD (i + 1), by simp [lineBits, List.range_succ_eq_map], ?_⟩
  rw [lineBits, List.range_succ_eq_map, List.map_cons, List.map_map]
  congr 1
  · simp
  · refine List.map_congr_left fun i _ => ?_
    simp

theorem shortFrame_eq :
    shortFrame kind sender phase cycle digest ins =
      leadByte :: headerBytes kind sender phase cycle digest ++
        insertCrc ins.crc (crcBytes (headerBytes kind sender phase cycle digest)) ++
        insertPattern ins.pattern (patternBytes sender cycle) := rfl

theorem shortFrame_length : (shortFrame kind sender phase cycle digest ins).length = 15 := by
  rw [shortFrame_eq, List.length_append, List.length_append, insertCrc_length, insertPattern_length, patternBytes_length]
  rfl

/-- The header of a FILL or COLD frame as it is read back. -/
theorem shortFrame_header :
    byteAt (shortFrame kind sender phase cycle digest ins) 0 = 0xC3 ∧
      (byteAt (shortFrame kind sender phase cycle digest ins) 1).toNat = kind.code * 32 + sender.val ∧
      (byteAt (shortFrame kind sender phase cycle digest ins) 2).toNat = phase.val ∧
      byteAt (shortFrame kind sender phase cycle digest ins) 3 = cycle ∧
      byteAt (shortFrame kind sender phase cycle digest ins) 4 = digest := by
  have h := headerBytes_toNat kind sender phase cycle digest
  simp only [headerBytes, List.map_cons, List.map_nil, List.cons.injEq] at h
  exact ⟨rfl, h.1, h.2.1, rfl, rfl⟩

theorem shortFrame_take :
    (shortFrame kind sender phase cycle digest ins).take 7 =
      leadByte :: headerBytes kind sender phase cycle digest ++
        insertCrc ins.crc (crcBytes (headerBytes kind sender phase cycle digest)) := by
  rw [shortFrame_eq, List.take_left']
  rw [List.length_append, insertCrc_length]
  rfl

theorem shortFrame_drop :
    (shortFrame kind sender phase cycle digest ins).drop 7 = insertPattern ins.pattern (patternBytes sender cycle) := by
  rw [shortFrame_eq, List.drop_left']
  rw [List.length_append, insertCrc_length]
  rfl

/-- The pattern bytes on the line, the first bit inverted by the insertion (R22). -/
theorem insertPattern_lineBits :
    (insertPattern ins.pattern (patternBytes sender cycle)).flatMap lineBits =
      match (patternBytes sender cycle).flatMap lineBits with
      | b :: rest => (b ^^ ins.pattern) :: rest
      | [] => [] := by
  obtain ⟨p, ps, hp⟩ := List.exists_cons_of_length_eq_add_one (patternBytes_length sender cycle)
  obtain ⟨x, rest, hx, hinv⟩ := lineBits_xor_one p
  rw [hp, List.flatMap_cons, hx, List.cons_append]
  cases ins.pattern
  · simp [insertPattern, hx]
  · simp only [insertPattern, List.flatMap_cons, hinv, List.cons_append, Bool.xor_true]

variable {kind sender phase cycle digest ins}

theorem shortFrame_kindCode :
    (byteAt (shortFrame kind sender phase cycle digest ins) 1).toNat / 32 = kind.code := by
  have := sender.isLt
  rw [(shortFrame_header ..).2.1]
  omega

variable (hk : kind ≠ .data)
include hk

theorem shortFrame_not_structure : ¬ StructureFault (shortFrame kind sender phase cycle digest ins) := by
  have hcode := @shortFrame_kindCode kind sender phase cycle digest ins
  have hlead := (shortFrame_header kind sender phase cycle digest ins).1
  simp only [StructureFault, shortFrame_length, hlead, hcode]
  cases kind with
  | data => exact absurd rfl hk
  | fill | cold => simp [FrameKind.code]

theorem shortFrame_crcFault : CrcFault (shortFrame kind sender phase cycle digest ins) ↔ ins.crc = true := by
  have hcode := @shortFrame_kindCode kind sender phase cycle digest ins
  rw [shortFrame_eq] at hcode ⊢
  refine crcFault_built ?_
  rw [hcode, if_neg (by cases kind with | data => exact absurd rfl hk | fill | cold => decide)]
  rfl

theorem shortFrame_not_values {table : List PhaseEntry} (hc : kind = .cold → cycle = 0)
    (ho : (table[phase.val]?.map PhaseEntry.owner) = some sender) :
    ¬ ValuesFault table (shortFrame kind sender phase cycle digest ins) := by
  have hcode := @shortFrame_kindCode kind sender phase cycle digest ins
  obtain ⟨-, -, hphase, hcycle, -⟩ := shortFrame_header kind sender phase cycle digest ins
  have hlt := phase.isLt
  have htable : phase.val < table.length := by
    by_contra hn
    simp [List.getElem?_eq_none (Nat.le_of_not_lt hn)] at ho
  simp only [ValuesFault, hcode, hphase, hcycle, Nat.mod_eq_of_lt hlt]
  cases kind with
  | data => exact absurd rfl hk
  | fill => simp [FrameKind.code]; omega
  | cold => simp [FrameKind.code, hc rfl]; omega

omit hk in
theorem shortFrame_not_foreign {table : List PhaseEntry} (ho : (table[phase.val]?.map PhaseEntry.owner) = some sender) :
    ¬ ForeignFault table (shortFrame kind sender phase cycle digest ins) := by
  obtain ⟨-, hsender, hphase, -, -⟩ := shortFrame_header kind sender phase cycle digest ins
  have hmod : (kind.code * 32 + sender.val) % 32 = sender.val := by have := sender.isLt; omega
  obtain ⟨e, he, hown⟩ := Option.map_eq_some_iff.mp ho
  simp [ForeignFault, hsender, hphase, hmod, Nat.mod_eq_of_lt phase.isLt, he, hown]

omit hk in
theorem shortFrame_fields :
    kindOf (shortFrame kind sender phase cycle digest ins) = some kind ∧
      senderOf (shortFrame kind sender phase cycle digest ins) = sender ∧
      phaseOf (shortFrame kind sender phase cycle digest ins) = phase ∧
      cycleOf (shortFrame kind sender phase cycle digest ins) = cycle := by
  obtain ⟨-, hsender, hphase, hcycle, -⟩ := shortFrame_header kind sender phase cycle digest ins
  have := sender.isLt
  refine ⟨kindOf_eq_some.mpr shortFrame_kindCode, Fin.ext ?_, Fin.ext ?_, hcycle⟩
  · show (byteAt _ 1).toNat % 32 = _
    omega
  · show (byteAt _ 2).toNat % 64 = _
    omega

/-- The pattern of a built frame is compared exactly without the CRC insertion (R18). -/
theorem shortFrame_patternCompared {own begun aligned : Bool} :
    PatternCompared (heard (shortFrame kind sender phase cycle digest ins) own begun aligned) ↔ ins.crc = false := by
  have hbytes : (heard (shortFrame kind sender phase cycle digest ins) own begun aligned).chars.map RxChar.data =
      shortFrame kind sender phase cycle digest ins := heard_bytes
  have hcode := @shortFrame_kindCode kind sender phase cycle digest ins
  have hlead := (shortFrame_header kind sender phase cycle digest ins).1
  have hkind : kind.code = 2 ∨ kind.code = 3 := by
    cases kind with
    | data => exact absurd rfl hk
    | fill => exact .inl rfl
    | cold => exact .inr rfl
  simp only [PatternCompared, hbytes, hlead, hcode, hkind, shortFrame_crcFault hk, true_and, Bool.not_eq_true]
  refine ⟨fun h => h.2.2, fun h => ⟨by simp [heard, shortFrame_length], fun ch hch => ?_, h⟩⟩
  obtain ⟨b, -, rfl⟩ := List.mem_map.mp (List.mem_of_mem_take hch)
  rfl

omit hk in
/-- Pattern bytes that arrive as they were built differ in no bit. -/
theorem patternAdds_self (l : List Byte) :
    (List.zipWith patternAdds (l.map fun b => ⟨b, true⟩) l).sum = 0 := by
  induction l with
  | nil => rfl
  | cons b l ih =>
    have hb : patternAdds ⟨b, true⟩ b = 0 := by
      simp only [patternAdds, BitVec.xor_self, if_true]
      decide
    rw [List.map_cons, List.zipWith_cons_cons, List.sum_cons, ih, hb]

omit hk in
/-- The PATTERN insertion makes one bit differ (R22). -/
theorem patternAdds_insertPattern {l : List Byte} (h : l ≠ []) (on : Bool) :
    (List.zipWith patternAdds ((insertPattern on l).map fun b => ⟨b, true⟩) l).sum = if on then 1 else 0 := by
  cases on with
  | false => exact patternAdds_self l
  | true =>
    cases l with
    | nil => exact absurd rfl h
    | cons b l =>
      have hb : patternAdds ⟨b ^^^ 1, true⟩ b = 1 := by
        have hone : b ^^^ 1 ^^^ b = 1 := by rw [BitVec.xor_comm, ← BitVec.xor_assoc, BitVec.xor_self, BitVec.zero_xor]
        simp only [patternAdds, hone, if_true]
        decide
      simp only [insertPattern, List.map_cons, List.zipWith_cons_cons, List.sum_cons, patternAdds_self, hb, if_true]

/-- The pattern error count of a built frame (R18, R22). -/
theorem shortFrame_patternErrors {own begun aligned : Bool} :
    patternErrors (heard (shortFrame kind sender phase cycle digest ins) own begun aligned) =
      if ins.crc then none else some (if ins.pattern then 1 else 0) := by
  cases hcrc : ins.crc
  · have hchars : (heard (shortFrame kind sender phase cycle digest ins) own begun aligned).chars.drop 7 =
        (insertPattern ins.pattern (patternBytes sender cycle)).map fun b => ⟨b, true⟩ := by
      rw [← shortFrame_drop kind sender phase cycle digest ins, List.map_drop]; rfl
    have hne : patternBytes sender cycle ≠ [] := by
      intro h
      have := patternBytes_length sender cycle
      simp [h] at this
    obtain ⟨-, hsender, -, hcycle⟩ := @shortFrame_fields kind sender phase cycle digest ins
    rw [patternErrors_of_compared ((shortFrame_patternCompared hk).mpr hcrc), hchars, heard_bytes, hsender, hcycle,
      patternAdds_insertPattern hne]
    rfl
  · rw [patternErrors_of_not_compared (by rw [shortFrame_patternCompared hk, hcrc]; exact nofun)]
    rfl

end

end Sys2Proof.Machine

namespace Sys2Proof.Proofs

open Sys2Proof.Machine

/-- Settles O52: the register steps, the pattern comparison, and the built frames field by field. -/
theorem shortFramesReadBack : Obligations.ShortFramesReadBack := by
  refine ⟨fun bytes => ?_, fun sender cycle => ⟨patternBytes_length sender cycle, ?_⟩,
    fun f => ⟨patternErrors_of_not_compared, patternErrors_of_compared⟩, ?_⟩
  · rw [crc16_eq]
    exact steps_foldl crcStep_crcBit _ _
  · rw [patternBytes_lineBits]
    exact steps_patternOutputs 64 (patternSeed sender cycle)
  · intro kind sender phase cycle digest table ins own begun aligned hk hc ho bytes f crc
    have hf : f = heard bytes own begun aligned := rfl
    obtain ⟨hkind, hsender, hphase, hcycle⟩ := @shortFrame_fields kind sender phase cycle digest ins
    have hbytes : f.bytes = bytes := heard_bytes
    rw [hbytes, hf, shortFrame_patternErrors hk]
    refine ⟨?_, ?_, shortFrame_length .., hkind, hsender, hphase, hcycle, fun h => ⟨?_, by rw [h]; rfl⟩,
      fun h => ⟨?_, by rw [h]; rfl⟩⟩
    · rw [shortFrame_take, List.map_append, List.map_cons, headerBytes_toNat, insertCrc_toNat]
      have hcode : kind.code = if kind = .fill then 2 else 3 := by
        cases kind with
        | data => exact absurd rfl hk
        | fill | cold => rfl
      rw [hcode]
      rfl
    · rw [shortFrame_drop]
      exact insertPattern_lineBits ..
    · exact checkFrame_heard_clean (shortFrame_not_structure hk) (mt (shortFrame_crcFault hk).mp (by simp [h]))
        (shortFrame_not_values hk hc ho) (shortFrame_header ..).2.2.2.2 (shortFrame_not_foreign ho)
    · exact checkFrame_heard_crc (shortFrame_not_structure hk) ((shortFrame_crcFault hk).mpr h)

end Sys2Proof.Proofs
end

section
/-! SUPPORT. DATA frames as they are built and read back (R12, R13, R15, R16, R20, R22). -/

namespace Sys2Proof.Machine

/-- A segment that the rules of R13 and R20 allow. -/
structure SegmentWf (g : Segment) : Prop where
  index : g.index ≤ 7
  nonempty : 1 ≤ g.payload.length
  bound : g.payload.length ≤ 64
  full : g.last = false → g.payload.length = 64
  ends : g.index = 7 → g.last = true
  destination : g.destination.toNat ≤ 31 ∨ g.destination = 0xFF

/-- The bytes of a DATA frame that its CRC covers (R13, R16). -/
def dataCovered (sender : Addr) (phase : Phase) (cycle : Cycle) (digest : Byte) (g : Segment) : List Byte :=
  headerBytes .data sender phase cycle digest ++ [g.destination, descriptorByte g, BitVec.ofNat 8 g.payload.length] ++
    g.payload

section

variable (sender : Addr) (phase : Phase) (cycle : Cycle) (digest : Byte) (g : Segment) (ins : Insertions)

theorem dataFrame_eq :
    dataFrame sender phase cycle digest g ins =
      leadByte :: dataCovered sender phase cycle digest g ++
        insertCrc ins.crc (crcBytes (dataCovered sender phase cycle digest g)) := rfl

theorem dataCovered_length : (dataCovered sender phase cycle digest g).length = 7 + g.payload.length := by
  rw [dataCovered, List.length_append]; rfl

theorem dataFrame_length : (dataFrame sender phase cycle digest g ins).length = 8 + g.payload.length + 2 := by
  rw [dataFrame_eq, List.length_append, insertCrc_length, List.length_cons, dataCovered_length]
  omega

theorem dataFrame_covered :
    ((dataFrame sender phase cycle digest g ins).drop 1).take (7 + g.payload.length) =
      dataCovered sender phase cycle digest g := by
  rw [dataFrame_eq, ← dataCovered_length sender phase cycle digest g]
  exact covered_built _ _ _

theorem dataFrame_payload :
    ((dataFrame sender phase cycle digest g ins).drop 8).take g.payload.length = g.payload := by
  have h : (dataFrame sender phase cycle digest g ins).drop 8 =
      g.payload ++ insertCrc ins.crc (crcBytes (dataCovered sender phase cycle digest g)) := rfl
  rw [h, List.take_left]

variable {g}

/-- Byte 6 of a DATA frame: class, message number, segment index, last flag (10, DATA frame). -/
theorem descriptorByte_toNat (hg : SegmentWf g) :
    (descriptorByte g).toNat = 64 * g.cls.val + 16 * g.number.toNat + 2 * g.index + g.last.toNat := by
  have hc := g.cls.isLt
  have hn : g.number.toNat < 4 := g.number.isLt
  have hi := hg.index
  have hl := Bool.toNat_le g.last
  rw [descriptorByte, BitVec.toNat_ofNat, Nat.mod_eq_of_lt (by omega)]
  omega

/-- The bytes of a DATA frame before its CRC, in numbers (R12, R13). -/
theorem dataCovered_toNat (hg : SegmentWf g) :
    (dataCovered sender phase cycle digest g).map BitVec.toNat =
      [32 + sender.val, phase.val, cycle.toNat, digest.toNat, g.destination.toNat,
        64 * g.cls.val + 16 * g.number.toNat + 2 * g.index + g.last.toNat, g.payload.length] ++
        g.payload.map BitVec.toNat := by
  have hlen : (BitVec.ofNat 8 g.payload.length).toNat = g.payload.length :=
    Nat.mod_eq_of_lt (by have := hg.bound; omega)
  simp only [dataCovered, List.map_append, headerBytes_toNat, List.map_cons, List.map_nil, descriptorByte_toNat hg, hlen,
    FrameKind.code, List.cons_append, List.nil_append, Nat.one_mul]

/-- The fields of a DATA frame as they are read back, in numbers. -/
theorem dataFrame_header (hg : SegmentWf g) :
    byteAt (dataFrame sender phase cycle digest g ins) 0 = 0xC3 ∧
      (byteAt (dataFrame sender phase cycle digest g ins) 1).toNat = 32 + sender.val ∧
      (byteAt (dataFrame sender phase cycle digest g ins) 2).toNat = phase.val ∧
      byteAt (dataFrame sender phase cycle digest g ins) 3 = cycle ∧
      byteAt (dataFrame sender phase cycle digest g ins) 4 = digest ∧
      byteAt (dataFrame sender phase cycle digest g ins) 5 = g.destination ∧
      (byteAt (dataFrame sender phase cycle digest g ins) 6).toNat =
        64 * g.cls.val + 16 * g.number.toNat + 2 * g.index + g.last.toNat ∧
      (byteAt (dataFrame sender phase cycle digest g ins) 7).toNat = g.payload.length := by
  have h := dataCovered_toNat sender phase cycle digest hg
  simp only [dataCovered, headerBytes, List.cons_append, List.nil_append, List.map_cons, List.cons.injEq] at h
  obtain ⟨hkind, hphase, -, -, -, hdesc, hlen, -⟩ := h
  exact ⟨rfl, hkind, hphase, rfl, rfl, rfl, hdesc, hlen⟩

variable {sender phase cycle digest ins}

/-- Every field of a DATA frame reads back as the segment gave it (R13). -/
theorem dataFrame_fields (hg : SegmentWf g) {bytes : List Byte} (hb : bytes = dataFrame sender phase cycle digest g ins) :
    kindOf bytes = some .data ∧ senderOf bytes = sender ∧ phaseOf bytes = phase ∧ cycleOf bytes = cycle ∧
      destinationOf bytes = g.destination ∧ classOf bytes = g.cls ∧ numberOf bytes = g.number ∧ indexOf bytes = g.index ∧
      lastOf bytes = g.last ∧ lengthOf bytes = g.payload.length := by
  have hheader := dataFrame_header sender phase cycle digest ins hg
  rw [← hb] at hheader
  obtain ⟨-, hsender, hphase, hcycle, -, hdest, hdesc, hlen⟩ := hheader
  have hs := sender.isLt
  have hp := phase.isLt
  have hc := g.cls.isLt
  have hn : g.number.toNat < 4 := g.number.isLt
  have hi := hg.index
  have hl := Bool.toNat_le g.last
  refine ⟨kindOf_eq_data.mpr (by omega), Fin.ext ?_, Fin.ext ?_, hcycle, hdest, Fin.ext ?_, BitVec.eq_of_toNat_eq ?_, ?_, ?_,
    hlen⟩
  · show (byteAt bytes 1).toNat % 32 = _
    omega
  · show (byteAt bytes 2).toNat % 64 = _
    omega
  · show (byteAt bytes 6).toNat / 64 % 4 = _
    omega
  · show (byteAt bytes 6).toNat / 16 % 4 = _
    omega
  · show (byteAt bytes 6).toNat / 2 % 8 = _
    omega
  · rw [Bool.eq_iff_iff, lastOf_iff, hdesc]
    cases g.last <;> simp <;> omega

/-! ### The checks of R20 on a built DATA frame -/

theorem dataFrame_kindCode (hg : SegmentWf g) :
    (byteAt (dataFrame sender phase cycle digest g ins) 1).toNat / 32 = 1 := kindOf_eq_data.mp (dataFrame_fields hg rfl).1

theorem dataFrame_not_structure (hg : SegmentWf g) : ¬ StructureFault (dataFrame sender phase cycle digest g ins) := by
  obtain ⟨hlead, -, -, -, -, -, -, hlen⟩ := dataFrame_header sender phase cycle digest ins hg
  simp only [StructureFault, dataFrame_length, hlead, dataFrame_kindCode hg, hlen]
  simp
  omega

theorem dataFrame_crcFault (hg : SegmentWf g) :
    CrcFault (dataFrame sender phase cycle digest g ins) ↔ ins.crc = true := by
  have hcode := @dataFrame_kindCode sender phase cycle digest g ins hg
  obtain ⟨-, -, -, -, -, -, -, hlen⟩ := dataFrame_header sender phase cycle digest ins hg
  rw [dataFrame_eq, ← List.append_nil (_ ++ insertCrc _ _)] at hcode hlen ⊢
  refine crcFault_built ?_
  rw [hcode, hlen, if_pos rfl, dataCovered_length]

theorem dataFrame_not_values {table : List PhaseEntry} (hg : SegmentWf g)
    (ho : (table[phase.val]?.map PhaseEntry.owner) = some sender) :
    ¬ ValuesFault table (dataFrame sender phase cycle digest g ins) := by
  obtain ⟨-, -, hphase, -, -, hdest, -, hlen⟩ := dataFrame_header sender phase cycle digest ins hg
  obtain ⟨-, -, -, -, -, -, -, hindex, hlast, -⟩ := @dataFrame_fields sender phase cycle digest g ins hg _ rfl
  have hindex' : (byteAt (dataFrame sender phase cycle digest g ins) 6).toNat / 2 % 8 = g.index := hindex
  have hdestination : g.destination.toNat ≤ 31 ∨ g.destination.toNat = 255 := hg.destination.imp_right fun h => by rw [h]; rfl
  have hlt := phase.isLt
  have htable : phase.val < table.length := by
    by_contra hn
    simp [List.getElem?_eq_none (Nat.le_of_not_lt hn)] at ho
  simp only [ValuesFault, dataFrame_kindCode hg, hphase, hdest, hlen, hindex', ← lastOf_iff, hlast,
    Nat.mod_eq_of_lt hlt, Bool.not_eq_true]
  rintro (h | h | ⟨h, -⟩ | ⟨-, h | h | h | ⟨hl, h⟩ | ⟨hi, hl⟩⟩)
  · omega
  · omega
  · omega
  · exact absurd h (Nat.ne_of_gt hg.nonempty)
  · exact absurd h (Nat.not_lt.mpr hg.bound)
  · omega
  · exact h (hg.full hl)
  · rw [hg.ends hi] at hl
    cases hl

theorem dataFrame_not_foreign {table : List PhaseEntry} (hg : SegmentWf g)
    (ho : (table[phase.val]?.map PhaseEntry.owner) = some sender) :
    ¬ ForeignFault table (dataFrame sender phase cycle digest g ins) := by
  obtain ⟨-, hsender, hphase, -⟩ := dataFrame_header sender phase cycle digest ins hg
  have hmod : (32 + sender.val) % 32 = sender.val := by have := sender.isLt; omega
  obtain ⟨e, he, hown⟩ := Option.map_eq_some_iff.mp ho
  simp [ForeignFault, hsender, hphase, hmod, Nat.mod_eq_of_lt phase.isLt, he, hown]

end

end Sys2Proof.Machine

namespace Sys2Proof.Proofs

open Sys2Proof.Machine

/-- Settles O53: the layout in numbers, the fields, and the outcome of the checks. -/
theorem dataFramesReadBack : Obligations.DataFramesReadBack := by
  intro sender phase cycle digest g table crc own begun aligned ho hindex h1 h64 hfull hends hdest bytes f n sum
  have hg : SegmentWf g := ⟨hindex, h1, h64, hfull, hends, hdest⟩
  have hf : f = heard bytes own begun aligned := rfl
  have hbytes : f.bytes = bytes := heard_bytes
  have hsum : sum = (crc16 (dataCovered sender phase cycle digest g)).toNat :=
    congrArg (fun l => (crc16 l).toNat) (dataFrame_covered ..)
  obtain ⟨hkind, hsender, hphase, hcycle, hdest', hcls, hnumber, hindex', hlast, hlen⟩ :=
    @dataFrame_fields sender phase cycle digest g ⟨false, crc⟩ hg _ rfl
  rw [hbytes, hf, hsum]
  refine ⟨?_, dataFrame_length .., hkind, hsender, hphase, hcycle, hdest', hcls, hnumber, hindex', hlast, hlen,
    dataFrame_payload .., ?_⟩
  · show (dataFrame _ _ _ _ _ _).map BitVec.toNat = _
    rw [dataFrame_eq, List.map_append, List.map_cons, dataCovered_toNat sender phase cycle digest hg, insertCrc_toNat]
    rfl
  · cases crc with
    | false =>
      exact checkFrame_heard_clean (dataFrame_not_structure hg) (mt (dataFrame_crcFault hg).mp nofun)
        (dataFrame_not_values hg ho) (dataFrame_header _ _ _ _ _ hg).2.2.2.2.1 (dataFrame_not_foreign hg ho)
    | true => exact checkFrame_heard_crc (dataFrame_not_structure hg) ((dataFrame_crcFault hg).mpr rfl)

end Sys2Proof.Proofs
end

section
/-! SUPPORT. The accord of station state, alignment, timers, driver and receiver over every shared operation. -/

namespace Sys2Proof.Machine

/-! ### States that agree in what the accord speaks of -/

/-- A state with the same Cycle Tracker, Station Controller and own address, whose receiver is OFF where the other's is, keeps
the accord where its driver stays ON and goes ON in COLD or ACTIVE alone. -/
theorem StationInv.congr {s t : State} (h : StationInv s) (ctr : t.ctr = s.ctr) (stc : t.stc = s.stc)
    (own : t.cfg.ownAddress = s.cfg.ownAddress) (receiver : t.lif.receiver = .off ↔ s.lif.receiver = .off)
    (on : t.lif.tx.isSome → s.lif.tx.isSome ∨ s.stc.station = .cold ∨ s.stc.station = .active)
    (stays : s.lif.tx.isSome → t.lif.tx.isSome) : StationInv t := by
  have howns : ownsPhase t = ownsPhase s := by simp only [ownsPhase, ctr, own]
  constructor <;> simp only [ctr, stc, howns, receiver]
  · exact h.tableBound
  · exact h.inTable
  · exact h.alignedIn
  · exact h.activeAligned
  · exact h.skipStopped
  · exact h.waitIn
  · exact h.coldOwns
  · exact h.pendingIn
  · exact fun ht => (on ht).elim h.driverIn id
  · exact h.receiverOff
  · exact fun he => stays (h.exitDriver he)
  · exact fun hr => stays (h.resetDriver hr)
  · exact h.holdIn

/-- Only the Cycle Tracker, the Station Controller, the Line Interface and the own address have a part in the accord. -/
theorem StationInv.of_eq {s t : State} (h : StationInv s) (ctr : t.ctr = s.ctr) (stc : t.stc = s.stc) (lif : t.lif = s.lif)
    (cfg : t.cfg = s.cfg) : StationInv t :=
  h.congr ctr stc (by rw [cfg]) (by rw [lif]) (by rw [lif]; exact .inl) (by rw [lif]; exact id)

section

variable {s : State} (h : StationInv s)
include h

theorem StationInv.withFru (x : Fru) : StationInv (s.withFru x) := h.of_eq rfl rfl rfl rfl
theorem StationInv.withTxs (x : Txs) : StationInv (s.withTxs x) := h.of_eq rfl rfl rfl rfl
theorem StationInv.withRxu (x : Rxu) : StationInv (s.withRxu x) := h.of_eq rfl rfl rfl rfl
theorem StationInv.withPmn (x : Pmn) : StationInv (s.withPmn x) := h.of_eq rfl rfl rfl rfl
theorem StationInv.withFlt (x : Flt) : StationInv (s.withFlt x) := h.of_eq rfl rfl rfl rfl
theorem StationInv.withLpt (x : Lpt) : StationInv (s.withLpt x) := h.of_eq rfl rfl rfl rfl
theorem StationInv.withPending (x : List Instr) : StationInv (s.withPending x) := h.of_eq rfl rfl rfl rfl
theorem StationInv.withFreeCount (x : Nat) : StationInv (s.withFreeCount x) := h.of_eq rfl rfl rfl rfl

/-- The Line Interface may change while the driver and the OFF of the receiver stand. -/
theorem StationInv.withLif (x : Lif) (receiver : x.receiver = .off ↔ s.lif.receiver = .off)
    (tx : x.tx.isSome = s.lif.tx.isSome) : StationInv (s.withLif x) :=
  h.congr rfl rfl rfl receiver (fun ht => .inl (tx ▸ ht)) (fun ht => tx.symm ▸ ht)

/-- In CONFIG the Cycle Tracker is UNALIGNED (R47). -/
theorem StationInv.unaligned_of (h1 : s.stc.station ≠ .active) (h2 : s.stc.station ≠ .silent) : s.ctr.aligned = false := by
  rw [← Bool.not_eq_true]
  exact fun ha => (h.alignedIn ha).elim h1 h2

/-- Outside COLD and ACTIVE the driver is OFF. -/
theorem StationInv.off_of (h1 : s.stc.station ≠ .cold) (h2 : s.stc.station ≠ .active) : s.lif.tx = none := by
  rw [← Option.not_isSome_iff_eq_none]
  exact fun ht => (h.driverIn ht).elim h1 h2

/-- With the driver OFF no change of state waits. -/
theorem StationInv.exit_of_off (ht : s.lif.tx = none) : s.stc.pendingExit = none := by
  rw [← Option.not_isSome_iff_eq_none]
  exact fun he => by simpa [ht] using h.exitDriver he

/-- With the driver OFF no soft reset waits. -/
theorem StationInv.reset_of_off (ht : s.lif.tx = none) : s.stc.softReset ≠ .waiting :=
  fun hr => by simpa [ht] using h.resetDriver hr

theorem StationInv.receiver_of (hs : s.stc.station ≠ .config) : s.lif.receiver ≠ .off := mt h.receiverOff.mp hs

end

/-! ### Entries to a station state -/

theorem stoppable_ne_config {x : Station} (h : stoppable x = true) : x ≠ .config := by
  rintro rfl; cases h

theorem stationInv_enterListen {s : State} (bound : s.ctr.table.length ≤ 64) (tx : s.lif.tx = none)
    (receiver : s.lif.receiver ≠ .off) (exit : s.stc.pendingExit = none) (reset : s.stc.softReset ≠ .waiting) :
    StationInv (enterListen s) where
  tableBound := bound
  inTable := nofun
  alignedIn := nofun
  activeAligned := nofun
  skipStopped _ := rfl
  waitIn hw := by
    refine ⟨rfl, ?_⟩
    by_contra hn
    have hnone : startColdWait s = none := if_neg hn
    have : (startColdWait s).isSome := hw
    simp [hnone] at this
  coldOwns := nofun
  pendingIn := nofun
  driverIn ht := by
    have : s.lif.tx.isSome := ht
    simp [tx] at this
  receiverOff := iff_of_false receiver nofun
  exitDriver he := by
    have : s.stc.pendingExit.isSome := he
    simp [exit] at this
  resetDriver hr := absurd hr reset
  holdIn := nofun

/-- LISTEN entered from any state outside CONFIG with the driver OFF. -/
theorem StationInv.enterListen {s : State} (h : StationInv s) (ht : s.lif.tx = none) (hs : s.stc.station ≠ .config) :
    StationInv (enterListen s) :=
  stationInv_enterListen h.tableBound ht (h.receiver_of hs) (h.exit_of_off ht) (h.reset_of_off ht)

theorem StationInv.enterSilent {s : State} (h : StationInv s) (ht : s.lif.tx = none)
    (hs : stoppable s.stc.station = true) : StationInv (enterSilent s) where
  tableBound := h.tableBound
  inTable := h.inTable
  alignedIn _ := .inr rfl
  activeAligned := nofun
  skipStopped := h.skipStopped
  waitIn := nofun
  coldOwns := nofun
  pendingIn := nofun
  driverIn hx := by
    have : s.lif.tx.isSome := hx
    simp [ht] at this
  receiverOff := iff_of_false (h.receiver_of (stoppable_ne_config hs)) nofun
  exitDriver he := by
    have : (s.stc.pendingExit.filter (· == .toConfig)).isSome := he
    simp [h.exit_of_off ht] at this
  resetDriver := h.resetDriver
  holdIn := nofun

theorem stationInv_enterConfig {s : State} (bound : s.ctr.table.length ≤ 64) (reset : s.stc.softReset ≠ .waiting) :
    StationInv (enterConfig s) where
  tableBound := bound
  inTable := nofun
  alignedIn := nofun
  activeAligned := nofun
  skipStopped _ := rfl
  waitIn := nofun
  coldOwns := nofun
  pendingIn := nofun
  driverIn := nofun
  receiverOff := iff_of_true rfl rfl
  exitDriver := nofun
  resetDriver hr := absurd hr reset
  holdIn := nofun

/-- Alignment on a phase of the table leads to ACTIVE from a station outside CONFIG (R34, R35, R56). -/
theorem StationInv.alignActive {s : State} (h : StationInv s) {p : Phase} (c : Cycle) (hold : Bool)
    (hp : p.val < s.ctr.table.length) (hs : s.stc.station ≠ .config) :
    StationInv (enterActive (s.withCtr { alignTo p c s.ctr with hold := hold })) where
  tableBound := h.tableBound
  inTable _ := hp
  alignedIn _ := .inl rfl
  activeAligned _ := rfl
  skipStopped := nofun
  waitIn := nofun
  coldOwns := nofun
  pendingIn := nofun
  driverIn _ := .inr rfl
  receiverOff := iff_of_false (h.receiver_of hs) nofun
  exitDriver := h.exitDriver
  resetDriver := h.resetDriver
  holdIn := nofun

/-- A soft reset keeps the accord (R63). -/
theorem StationInv.softReset {s : State} (h : StationInv s) : StationInv (softResetState s) where
  tableBound := h.tableBound
  inTable := nofun
  alignedIn := nofun
  activeAligned := nofun
  skipStopped _ := rfl
  waitIn := nofun
  coldOwns := nofun
  pendingIn := nofun
  driverIn := nofun
  receiverOff := iff_of_true rfl rfl
  exitDriver := nofun
  resetDriver := nofun
  holdIn := nofun

theorem stationInv_reset : StationInv State.reset where
  tableBound := Nat.zero_le 64
  inTable := nofun
  alignedIn := nofun
  activeAligned := nofun
  skipStopped _ := rfl
  waitIn := nofun
  coldOwns := nofun
  pendingIn := nofun
  driverIn := nofun
  receiverOff := iff_of_true rfl rfl
  exitDriver := nofun
  resetDriver := nofun
  holdIn := nofun

/-! ### Faults -/

/-- A change of state may wait for the cut while the driver is ON (R59). -/
theorem StationInv.wait {s : State} (h : StationInv s) (e : Option Exit) (ht : s.lif.tx.isSome) :
    StationInv (s.withStc { s.stc with pendingExit := e }) :=
  { h with exitDriver := fun _ => ht }

theorem StationInv.stoppingReport {s : State} (h : StationInv s) : StationInv (stoppingReport s) := by
  unfold Machine.stoppingReport
  split
  · next hs =>
    split
    · next ht => exact h.wait _ ht
    · next ht => exact h.enterSilent (by simpa using ht) hs
  · exact h

theorem StationInv.raise {s : State} (h : StationInv s) (o : Occurrence) : StationInv (raise o s) := by
  by_cases hs : Stops o.kind s
  · rw [raise_stops hs]; exact (h.withFlt _).stoppingReport
  · rw [raise_calm hs]; exact h.withFlt _

theorem stationInv_standsOverTasks : StandsOverTasks StationInv where
  report o _ h := h.raise o
  receive x _ h := h.withRxu x
  peers x _ h := h.withPmn x
  line _ h := h.withLpt _

/-! ### The start of a phase -/

/-- Of the Line Interface a request changes the driver alone. -/
theorem sendRequest_lif (r : FrameRequest) (s : State) :
    (sendRequest r s).lif = { s.lif with tx := (sendRequest r s).lif.tx } := by
  unfold sendRequest
  split
  · cases r with
    | fill => rfl
    | data tag index last => simp only; split <;> rfl
  · rfl

/-- A request leaves the driver ON where it is. -/
theorem sendRequest_on (r : FrameRequest) {s : State} (h : s.lif.tx.isSome) : (sendRequest r s).lif.tx.isSome := by
  unfold sendRequest
  split
  · cases r with
    | fill => rfl
    | data tag index last => simp only; split; exacts [rfl, h]
  · exact h

/-- The phase that begins is offered to the Transmit Scheduler, or the skip timer alone is started (R28). -/
theorem phaseStart_cases (s : State) :
    (∃ e, s.ctr.table[s.ctr.p.val]? = some e ∧ e.owner = s.cfg.ownAddress ∧ s.stc.station = .active ∧ s.ctr.hold = false ∧
      phaseStart s = ownPhaseStart e.floor (s.withCtr { s.ctr with skip := .running 2 })) ∨
    (((s.ctr.table[s.ctr.p.val]?.map PhaseEntry.owner) ≠ some s.cfg.ownAddress ∨ s.stc.station ≠ .active ∨
        s.ctr.hold = true) ∧
      phaseStart s = s.withCtr { s.ctr with skip := .running 2 }) := by
  have hown : ownPhase (s.withCtr { s.ctr with skip := .running Config.skipTime }) =
      match s.ctr.table[s.ctr.p.val]? with
      | some e => if e.owner = s.cfg.ownAddress then some e else none
      | none => none := rfl
  unfold phaseStart
  simp only [hown]
  cases he : s.ctr.table[s.ctr.p.val]? with
  | none => exact .inr ⟨.inl (by simp), rfl⟩
  | some e =>
    by_cases ho : e.owner = s.cfg.ownAddress
    · by_cases hs : s.stc.station = .active ∧ s.ctr.hold = false
      · exact .inl ⟨e, rfl, ho, hs.1, hs.2, by simp [ho, hs, Config.skipTime]⟩
      · refine .inr ⟨.inr ?_, ?_⟩
        · by_cases ha : s.stc.station = .active
          · exact .inr (by simpa [ha] using hs)
          · exact .inl ha
        · simp only [ho, if_true]
          rw [if_neg (by simpa using hs)]
          rfl
    · exact .inr ⟨.inl (by simpa using ho), by simp [ho, Config.skipTime]⟩

theorem StationInv.ownPhaseStart {s : State} (h : StationInv s) (floor : Cls) (hs : s.stc.station = .active) :
    StationInv (ownPhaseStart floor s) := by
  refine h.congr (by simp) (by simp) (by simp) ?_ (fun _ => .inr (.inr hs)) fun ht => ?_
  · rw [Machine.ownPhaseStart, sendRequest_lif, select_lif]
  · exact sendRequest_on _ (by rwa [select_lif])

/-- A running skip timer keeps the accord while ALIGNED (R27). -/
theorem StationInv.startSkip {s : State} (h : StationInv s) (x : SkipTimer) (ha : s.ctr.aligned = true) :
    StationInv (s.withCtr { s.ctr with skip := x }) :=
  { h with skipStopped := fun hu => by simp [ha] at hu }

theorem StationInv.phaseStart {s : State} (h : StationInv s) (ha : s.ctr.aligned = true) : StationInv (phaseStart s) := by
  rcases phaseStart_cases s with ⟨e, -, -, hs, -, he⟩ | ⟨-, he⟩
  · rw [he]; exact (h.startSkip _ ha).ownPhaseStart _ hs
  · rw [he]; exact h.startSkip _ ha

/-- Outside ACTIVE no phase is offered, and the driver stands. -/
theorem phaseStart_lif_of_not_active {s : State} (h : s.stc.station ≠ .active) : (phaseStart s).lif = s.lif := by
  rcases phaseStart_cases s with ⟨e, -, -, hs, -, -⟩ | ⟨-, he⟩
  · exact absurd hs h
  · rw [he]; rfl

/-! ### The end of a phase -/

/-- What stands over the tasks, the heard credit and, where the Cycle Tracker was ALIGNED, the phase start, stands over a phase
end, after its advance and counting. -/
theorem phaseEndWith_induct_aligned {P : State → Prop} {w : Work} {s : State} (hpeers : ∀ x s, P s → P (s.withPmn x))
    (htask : ∀ whole p c t s, P s → P (runTask w whole p c t s)) (hstart : s.ctr.aligned = true → ∀ u, P u → P (phaseStart u))
    (o : Config.FrameEndOrder) (h : P (countAtEnd o (endsCycle s) w.errors (s.withCtr (advanced s)))) :
    P (phaseEndWith o w s) := by
  have hcredit : ∀ u, P u → P (creditHeard w u) := by
    intro u hu
    unfold creditHeard
    split
    · exact hpeers _ _ hu
    · exact hu
  have hif : ∀ (b : Bool) (u v : State), (b = true → P u) → P v → P (if b then u else v) := by
    intro b u v hu hv; cases b; exacts [hv, hu rfl]
  unfold phaseEndWith
  simp only
  have h2 := hif o.creditFirst _ _ (fun _ => hcredit _ h) h
  have h3 := runTasks_induct (htask s.ctr.whole (nextPhase s) (nextCycle s)) (tasksBefore o (endsCycle s)) h2
  have h4 := hif s.ctr.aligned _ _ (fun ha => hstart ha _ h3) h3
  have h5 := hif (endsCycle s && o.selectFirst) _ _
    (fun _ => htask s.ctr.whole (nextPhase s) (nextCycle s) .presence _ h4) h4
  exact hif o.creditFirst _ _ (fun _ => h5) (hcredit _ h5)

/-- The phase after the advance is one of the table (R31). -/
theorem nextPhase_lt {s : State} (bound : s.ctr.table.length ≤ 64) (h : s.ctr.p.val < s.ctr.table.length)
    (ha : s.ctr.aligned = true) : (nextPhase s).val < s.ctr.table.length := by
  unfold nextPhase
  split
  · exact Nat.zero_lt_of_lt h
  · next he =>
    have hne : s.ctr.p.val + 1 ≠ s.ctr.table.length := by simpa [endsCycle, tableLength, ha] using he
    show (s.ctr.p.val + 1) % 64 < _
    omega

theorem StationInv.advance {s : State} (h : StationInv s) : StationInv (s.withCtr (advanced s)) := by
  unfold advanced
  split
  · next ha =>
    refine { h with inTable := fun _ => nextPhase_lt h.tableBound (h.inTable ha) ha, holdIn := fun hh => ?_ }
    have : (s.ctr.hold && !endsCycle s) = true := hh
    exact h.holdIn (Bool.and_eq_true_iff.mp this).1
  · exact h

/-- No occurrence leads into COLD, and none changes the driver. -/
theorem coldOff_standsOverTasks :
    StandsOverTasks fun s => s.stc.station = .cold → s.lif.tx = none where
  report o s h hc := by
    rw [raise_lif]
    refine h ?_
    rcases raise_stc s o with e | ⟨-, -, -, e⟩ | ⟨-, -, -, e⟩ <;> rw [e] at hc
    · exact hc
    · exact hc
    · cases hc
  receive _ _ h := h
  peers _ _ h := h
  line _ h := h

theorem aligned_standsOverTasks : StandsOverTasks fun s => s.ctr.aligned = true where
  report o s h := by rw [(raise_tracked o s).2.1]; exact h
  receive _ _ h := h
  peers _ _ h := h
  line _ h := h

/-- A phase end keeps the accord; it starts no frame in COLD. -/
theorem StationInv.phaseEndWith {s : State} (h : StationInv s) (o : Config.FrameEndOrder) (w : Work) :
    StationInv (phaseEndWith o w s) ∧
      ((s.stc.station = .cold → s.lif.tx = none) →
        (Machine.phaseEndWith o w s).stc.station = .cold → (Machine.phaseEndWith o w s).lif.tx = none) := by
  have hbegin : StationInv (Machine.countAtEnd o (endsCycle s) w.errors (s.withCtr (advanced s))) :=
    h.advance.of_eq (by simp) (by simp) (by simp) (by simp)
  have halign : s.ctr.aligned = true → (advanced s).aligned = true := by intro ha; simp [advanced, ha]
  constructor
  · refine (phaseEndWith_induct_aligned (P := fun u => StationInv u ∧ (s.ctr.aligned = true → u.ctr.aligned = true))
      (fun x u hu => ⟨hu.1.withPmn x, hu.2⟩) (fun whole p c t u hu => ⟨?_, fun ha => ?_⟩)
      (fun ha u hu => ⟨hu.1.phaseStart (hu.2 ha), fun _ => ?_⟩) o ⟨hbegin, by simpa using halign⟩).1
    · exact stationInv_standsOverTasks.runTask w whole p c t hu.1
    · exact aligned_standsOverTasks.runTask w whole p c t (hu.2 ha)
    · rw [phaseStart_ctr]; exact hu.2 ha
  · intro hoff
    refine phaseEndWith_induct_aligned (P := fun u => u.stc.station = .cold → u.lif.tx = none)
      (fun _ _ hu => hu) (fun whole p c t u hu => coldOff_standsOverTasks.runTask w whole p c t hu)
      (fun _ u hu hc => ?_) o (by simpa using hoff)
    rw [phaseStart_stc] at hc
    rw [phaseStart_lif_of_not_active (by rw [hc]; exact nofun)]
    exact hu hc

theorem StationInv.useOrder {s : State} (h : StationInv s) (w : Work) : StationInv (useOrder w s) :=
  h.of_eq (by simp) (by simp) (by simp) (by simp)

theorem StationInv.phaseEnd {s : State} (h : StationInv s) (w : Work) : StationInv (phaseEnd w s) :=
  ((h.useOrder w).phaseEndWith _ w).1

theorem StationInv.skipExpire {s : State} (h : StationInv s) : StationInv (skipExpire s) :=
  StationInv.phaseEnd (h.withFru _) _

/-! ### Frame ends -/

theorem StationInv.dropFrame {s : State} (h : StationInv s) : StationInv (dropFrame s) := h.of_eq rfl rfl rfl rfl

/-- The end of HOLD keeps the accord. -/
theorem StationInv.endHold {s : State} (h : StationInv s) : StationInv (s.withCtr { s.ctr with hold := false }) :=
  { h with holdIn := nofun }

/-- Alignment on a phase of the table keeps the accord in ACTIVE and SILENT (R34, R38). -/
theorem StationInv.align {s : State} (h : StationInv s) {p : Phase} (c : Cycle) (hp : p.val < s.ctr.table.length)
    (hs : s.stc.station = .active ∨ s.stc.station = .silent) :
    StationInv (s.withCtr { alignTo p c s.ctr with hold := false }) :=
  { h with
    inTable := fun _ => hp, alignedIn := fun _ => hs, activeAligned := fun _ => rfl, skipStopped := nofun, holdIn := nofun }

theorem StationInv.trackClean {s : State} (h : StationInv s) {b : List Byte} (hp : (phaseOf b).val < s.ctr.table.length) :
    StationInv (trackClean b s) := by
  unfold Machine.trackClean
  simp only
  split_ifs with hacq hsilent hre
  · exact h.align _ hp (.inr hsilent)
  · refine h.alignActive _ _ hp fun hc => ?_
    simp [acquires, hc] at hacq
  · exact h.align _ hp (h.alignedIn (by simp [realigns] at hre; exact hre.1))
  · exact h.endHold

/-- A clean frame announces a phase of the table (R20). -/
theorem phaseOf_lt_of_clean {table : List PhaseEntry} {digest : Byte} {f : Gather}
    (h : checkFrame table digest f = .clean) : (phaseOf f.bytes).val < table.length := by
  have hv : ¬ ValuesFault table f.bytes := ((checkFrame_iff table digest f .clean).mp h).2.2.2.1
  simp only [ValuesFault, not_or] at hv
  exact Nat.lt_of_not_le hv.2.1

theorem kind_eq_none_iff {x : FrameOutcome} : x.kind = none ↔ x = .clean := by
  cases x <;> simp [FrameOutcome.kind]

theorem StationInv.cleanFrameEnd {s : State} (h : StationInv s) {f : Gather}
    (hclean : checkFrame s.ctr.table s.ctr.digest f = .clean) : StationInv (cleanFrameEnd f s) := by
  have hp : (phaseOf f.bytes).val < (Machine.dropFrame s).ctr.table.length := phaseOf_lt_of_clean hclean
  have htracked : StationInv (notePeer f.bytes (patternErrors f) (Machine.trackClean f.bytes (Machine.dropFrame s))) :=
    (h.dropFrame.trackClean hp).of_eq (by simp) (by simp) (by simp) (by simp)
  exact ((htracked.useOrder _).phaseEndWith _ _).1

/-- The frame end of a frame with a fault: a station still in COLD has its driver OFF and returns to LISTEN (R54). -/
theorem StationInv.faultFrameEnd {s : State} (h : StationInv s) (ht : s.lif.tx = none) (f : Gather) (x : FrameOutcome)
    (k : FaultKind) : StationInv (faultFrameEnd f x k s) := by
  have hnoted : StationInv (noteFault f.bytes x (Machine.dropFrame s)) :=
    h.dropFrame.of_eq (by simp) (by simp) (by simp) (by simp)
  have hoff : ((Machine.useOrder (faultWork f x k s) (noteFault f.bytes x (Machine.dropFrame s))).stc.station = .cold →
      (Machine.useOrder (faultWork f x k s) (noteFault f.bytes x (Machine.dropFrame s))).lif.tx = none) := by
    simpa using fun _ => ht
  obtain ⟨hend, hcold⟩ := (hnoted.useOrder (faultWork f x k s)).phaseEndWith
    (orderOf (faultWork f x k s) (noteFault f.bytes x (Machine.dropFrame s))) (faultWork f x k s)
  unfold Machine.faultFrameEnd Machine.phaseEnd
  simp only
  split
  · next hc => exact hend.enterListen (hcold hoff hc) (by rw [hc]; exact nofun)
  · exact hend

/-- The lowest owned phase is one of the table. -/
theorem lowestOwned_lt {s : State} (bound : s.ctr.table.length ≤ 64) (h : ownsPhase s = true) :
    (lowestOwned s).val < s.ctr.table.length := by
  have hlt : (s.ctr.table.findIdx fun e => e.owner == s.cfg.ownAddress) < s.ctr.table.length :=
    List.findIdx_lt_length.mpr (by simpa [ownsPhase] using h)
  show (List.findIdx _ _) % 64 < _
  omega

theorem StationInv.ownFrameEnd {s : State} (h : StationInv s) : StationInv (ownFrameEnd s) := by
  unfold Machine.ownFrameEnd
  split_ifs with hpending
  · have hcold := h.pendingIn hpending
    have hp := lowestOwned_lt h.tableBound (h.coldOwns hcold)
    exact (h.alignActive 0 _ hp (by rw [hcold]; exact nofun)).phaseEnd _
  · exact h.phaseEnd _
  · exact h

theorem StationInv.endFrame {s : State} (h : StationInv s) (ht : s.lif.tx = none) : StationInv (endFrame s) := by
  unfold Machine.endFrame
  split
  · exact h
  · split_ifs
    · exact h.withFru _
    · exact h.dropFrame.ownFrameEnd
    · simp only
      split
      · next hk => exact h.cleanFrameEnd (kind_eq_none_iff.mp hk)
      · exact h.faultFrameEnd ht _ _ _

end Sys2Proof.Machine
end

section
/-! SUPPORT. The accord of the station, and what the port has counted, over every transaction, event and command, and so over
every step. -/

namespace Sys2Proof.Machine

/-! ### Transactions -/

section

variable {s : State} (h : StationInv s)
include h

/-- New items in CONFIG, where neither alignment nor a wait nor a COLD frame speaks of owned phases (R171). -/
theorem StationInv.applySetup (items : Items) (hc : s.stc.station = .config) : StationInv (applySetup items s) where
  tableBound := h.tableBound
  inTable := h.inTable
  alignedIn := h.alignedIn
  activeAligned := h.activeAligned
  skipStopped := h.skipStopped
  waitIn hw := by
    have hl := (h.waitIn hw).1
    rw [hc] at hl; cases hl
  coldOwns hs := by
    have : s.stc.station = .cold := hs
    rw [hc] at this; cases this
  pendingIn := h.pendingIn
  driverIn := h.driverIn
  receiverOff := h.receiverOff
  exitDriver := h.exitDriver
  resetDriver := h.resetDriver
  holdIn := h.holdIn

/-- A new table of at most 64 entries in CONFIG, where the Cycle Tracker is UNALIGNED (R24). -/
theorem StationInv.applyTable {table : List PhaseEntry} (hc : s.stc.station = .config) (bound : table.length ≤ 64) :
    StationInv (applyTable table s) where
  tableBound := bound
  inTable ha := by
    have : s.ctr.aligned = true := ha
    rw [h.unaligned_of (by rw [hc]; exact nofun) (by rw [hc]; exact nofun)] at this
    cases this
  alignedIn := h.alignedIn
  activeAligned := h.activeAligned
  skipStopped := h.skipStopped
  waitIn hw := by
    have hl := (h.waitIn hw).1
    rw [hc] at hl; cases hl
  coldOwns hs := by
    have : s.stc.station = .cold := hs
    rw [hc] at this; cases this
  pendingIn := h.pendingIn
  driverIn := h.driverIn
  receiverOff := h.receiverOff
  exitDriver := h.exitDriver
  resetDriver := h.resetDriver
  holdIn := h.holdIn

theorem StationInv.applyJoin (hc : s.stc.station = .config) : StationInv (applyJoin s) := by
  have ht : s.lif.tx = none := h.off_of (by rw [hc]; exact nofun) (by rw [hc]; exact nofun)
  exact stationInv_enterListen h.tableBound ht nofun (h.exit_of_off ht) (h.reset_of_off ht)

theorem StationInv.applyLeave : StationInv (applyLeave s) := by
  unfold Machine.applyLeave
  split
  · next ht => exact h.wait _ ht
  · next ht => exact stationInv_enterConfig h.tableBound (h.reset_of_off (by simpa using ht))

theorem StationInv.applyRejoin (hs : s.stc.station = .silent) : StationInv (applyRejoin s) := by
  have ht : s.lif.tx = none := h.off_of (by rw [hs]; exact nofun) (by rw [hs]; exact nofun)
  exact stationInv_enterListen h.tableBound ht (h.receiver_of (by rw [hs]; exact nofun)) (h.exit_of_off ht) (h.reset_of_off ht)

/-- The owning block's decision keeps the accord, where a TABLE has the entries that its length argument counts. -/
theorem StationInv.decideCommand (c : Command) (counted : c = .table → s.lpt.args.length = 1 + arg s.lpt.args 0) :
    StationInv (decideCommand c s).state := by
  cases c with
  | setup =>
    simp only [Machine.decideCommand, decideSetup]
    split_ifs with hc hr
    · exact h
    · exact h.applySetup _ (not_not.mp hc)
    · exact h
  | table =>
    simp only [Machine.decideCommand, decideTable]
    split_ifs with hc hl he
    · exact h
    · exact h
    · have hn := counted rfl
      exact h.applyTable (not_not.mp hc) (by simp; omega)
    · exact h
  | join =>
    simp only [Machine.decideCommand, decideJoin]
    split_ifs with hc
    · exact h
    · exact h
    · exact h.applyJoin (not_not.mp hc)
  | leave =>
    simp only [Machine.decideCommand, decideLeave]
    split_ifs
    · exact h
    · exact h.applyLeave
  | rejoin =>
    simp only [Machine.decideCommand, decideRejoin]
    split_ifs with hs
    · exact h.applyRejoin hs
    · exact h
  | restart => exact { h with resetDriver := nofun }
  | enable => exact h.withLpt _
  | test =>
    simp only [Machine.decideCommand, decideTest]
    split_ifs
    · exact h
    · exact h.withFru _
  | submit =>
    simp only [Machine.decideCommand, decideSubmit]
    split_ifs
    · exact h
    · exact h
    · exact h
    · exact h
    · exact (h.withTxs _).withLpt _
  | withdraw =>
    simp only [Machine.decideCommand, decideWithdraw]
    split
    · exact h
    · split_ifs
      · exact h
      · exact h
      · exact (h.withTxs _).withLpt _
  | completions =>
    simp only [Machine.decideCommand, decideCompletions]
    split_ifs
    · exact h
    · exact h
    · exact h.withTxs _
  | fetch =>
    simp only [Machine.decideCommand, decideFetch]
    split
    · exact h
    · exact (h.withRxu _).withLpt _
  | status => exact { h with }
  | peers =>
    simp only [Machine.decideCommand, decidePeers]
    split_ifs
    · exact h
    · exact h.withPmn _
  | faults => exact h
  | faultClear => exact h.withFlt _
  | counter => exact h.withFlt _
  | snapshot =>
    simp only [Machine.decideCommand, decideSnapshot]
    split
    · exact h.withFlt _
    · exact h

omit h in
theorem StationInv.answer {a : Answer} (h : StationInv a.state) : StationInv (answer a) := (h.withTxs _).withLpt _

theorem StationInv.takeCommand (c : Command) (counted : c = .table → s.lpt.args.length = 1 + arg s.lpt.args 0) :
    StationInv (takeCommand c s) := by
  unfold Machine.takeCommand
  split
  · exact StationInv.answer h
  · exact StationInv.answer (h.decideCommand c counted)

omit h in
/-- A TABLE that has all its bytes holds the entries that its length argument counts (R24, R167). -/
theorem table_counted {args : List Byte} {n : Nat} (h : Command.argumentTotal .table args = some n) :
    n = 1 + arg args 0 := by
  cases args with
  | nil => cases h
  | cons l rest => exact (Option.some.inj h).symm

omit h in
theorem awaits_counted {args payload : List Byte} (h : awaits .table args payload s = true) :
    args.length + payload.length = 1 + arg args 0 := by
  simp only [awaits, Bool.and_eq_true, beq_iff_eq] at h
  exact table_counted h.1

/-- A transaction keeps the accord; a TABLE has no payload beside its arguments. -/
theorem StationInv.transact (c : Command) (args payload : List Byte) (hp : c = .table → payload = []) :
    StationInv (transact c args payload s) := by
  unfold Machine.transact
  split
  · next hw =>
    refine StationInv.takeCommand ((h.withTxs _).withLpt _) c ?_
    rintro rfl
    have := awaits_counted hw
    simpa [hp rfl] using this
  · exact h

/-! ### Bytes of the local port -/

theorem StationInv.passOn (c : Command) (b : Byte) : StationInv (passOn c b s) := by
  unfold Machine.passOn
  simp only
  split
  · exact (h.withLpt _).withTxs _
  · exact h.withLpt _

theorem StationInv.commandByte (b : Byte) (hargs : s.lpt.args = []) : StationInv (commandByte b s) := by
  unfold Machine.commandByte
  simp only
  split
  · exact StationInv.answer (h.withLpt _)
  · split
    · next hdone =>
      refine StationInv.takeCommand ((h.withLpt _).withLpt _) _ ?_
      rintro rfl
      simp [complete, hargs, Command.argumentTotal] at hdone
    · exact (h.withLpt _).withLpt _

omit h in
/-- An argument byte that is not of a SUBMIT payload is counted and held. -/
theorem passOn_counted {c : Command} (hc : c ≠ .submit) (b : Byte) :
    (passOn c b s).lpt = { s.lpt with byteCount := s.lpt.byteCount + 1, sdo := some idleByte, args := s.lpt.args ++ [b] } := by
  simp [Machine.passOn, hc]

theorem StationInv.argumentByte (b : Byte) (hs : s.lpt.state = .arguments) (hport : PortInv s) :
    StationInv (argumentByte b s) := by
  unfold Machine.argumentByte
  split
  · exact h
  · next c hc =>
    split
    · next hdone =>
      refine (h.passOn c b).takeCommand c ?_
      rintro rfl
      have hcount := hport.counted hs (by rw [hc]; exact nofun)
      have hdone' := table_counted (by simpa [complete] using hdone)
      simp only [passOn_counted (s := s) (c := .table) nofun, List.length_append, List.length_singleton] at hdone' ⊢
      omega
    · exact h.passOn c b

theorem StationInv.replyByte : StationInv (replyByte s) := by
  unfold Machine.replyByte
  split <;> exact h.withLpt _

theorem StationInv.receiveByte (b : Byte) (hport : PortInv s) : StationInv (receiveByte b s) := by
  unfold Machine.receiveByte
  split
  · exact h
  · next hs => exact h.commandByte b (hport.command hs)
  · next hs => exact h.argumentByte b hs hport
  · exact h.replyByte
  · exact h.withLpt _

theorem StationInv.portIdle : StationInv (portIdle s) := (h.withTxs _).withLpt _

theorem StationInv.riseReset : StationInv (riseReset s) := by
  unfold Machine.riseReset
  split_ifs with _ ht
  · exact { h with resetDriver := fun _ => ht }
  · exact h.softReset
  · exact h

/-! ### Events of the line -/

/-- The receiver may change between states that are not OFF. -/
theorem StationInv.withReceiver (r : Receiver) (hr : r ≠ .off) (hs : s.lif.receiver ≠ .off) :
    StationInv (s.withLif { s.lif with receiver := r }) :=
  h.withLif _ (iff_of_false hr hs) rfl

theorem StationInv.lineActivity : StationInv (lineActivity s) :=
  { h with
    skipStopped := fun _ => rfl
    waitIn := fun hw => h.waitIn (by
      have : (s.ctr.coldWait.map fun _ => Config.coldStartWait s.cfg.ownAddress).isSome := hw
      simpa using this) }

theorem StationInv.takeChar (ch : RxChar) (hs : s.lif.receiver ≠ .off) : StationInv (takeChar ch s) := by
  refine h.congr (by simp) (by simp) (by simp) ?_ ?_ ?_
  · rw [takeChar_lif]
    refine iff_of_false ?_ hs
    cases ch.good <;> exact nofun
  · rw [takeChar_lif]; simpa using fun ht => .inl ht
  · rw [takeChar_lif]; simp

theorem StationInv.dueSkip : StationInv (dueSkip s) := by
  unfold Machine.dueSkip
  split
  · exact h.skipExpire
  · exact h

theorem StationInv.afterSample : StationInv (afterSample s) := by
  unfold Machine.afterSample
  split_ifs with ht
  · exact h
  · exact (StationInv.endFrame (h.withLif { s.lif with frameEndDue := false } Iff.rfl rfl) (by simpa using ht)).dueSkip
  · exact h.dueSkip

/-- The station in COLD with the wait stopped, its driver OFF: the COLD frame is asked for (R51, R54). -/
theorem StationInv.requestCold (hs : s.stc.station = .cold) (ht : s.lif.tx = none) : StationInv (requestCold s) := by
  unfold Machine.requestCold
  split_ifs
  · exact h.congr rfl rfl rfl Iff.rfl (fun _ => .inr (.inl hs)) (fun _ => rfl)
  · exact h
  · exact h.enterListen ht (by rw [hs]; exact nofun)

/-- From LISTEN with the cold-start wait running the station enters COLD for an owned phase (R41, R51). -/
theorem StationInv.enterCold (hs : s.stc.station = .listen) (hw : s.ctr.coldWait.isSome) :
    StationInv ((s.withCtr { s.ctr with coldWait := none }).withStc { s.stc with station := .cold }) where
  tableBound := h.tableBound
  inTable := h.inTable
  alignedIn ha := by
    have : s.ctr.aligned = true := ha
    rw [h.unaligned_of (by rw [hs]; exact nofun) (by rw [hs]; exact nofun)] at this
    cases this
  activeAligned := nofun
  skipStopped := h.skipStopped
  waitIn := nofun
  coldOwns _ := (h.waitIn hw).2
  pendingIn _ := rfl
  driverIn _ := .inl rfl
  receiverOff := iff_of_false (h.receiver_of (by rw [hs]; exact nofun)) nofun
  exitDriver := h.exitDriver
  resetDriver := h.resetDriver
  holdIn hh := by
    have := h.holdIn hh
    rw [hs] at this; cases this

/-! ### Transmit outcomes -/

/-- The driver goes OFF; what waits for the cut is set apart. -/
theorem StationInv.driverOff : StationInv (withoutExit (driverOff s)) :=
  { h with
    driverIn := nofun
    exitDriver := nofun
    resetDriver := fun hr => absurd hr (withoutExit_softReset_ne (Machine.driverOff s)) }

omit h in
/-- What waits for the cut has no part in a report of a fault, with the driver OFF. -/
theorem withoutExit_raise (o : Occurrence) (ht : s.lif.tx = none) : withoutExit (raise o s) = raise o (withoutExit s) := by
  by_cases hs : Stops o.kind s
  · have hs' : Stops o.kind (withoutExit s) := hs
    rw [raise_stops hs, raise_stops hs', stoppingReport_off (by exact ht), stoppingReport_off (by exact ht)]
    show withoutExit (if stoppable s.stc.station then _ else _) = if stoppable s.stc.station then _ else _
    split <;> rfl
  · have hs' : ¬ Stops o.kind (withoutExit s) := hs
    rw [raise_calm hs, raise_calm hs']
    rfl

omit h in
theorem withoutExit_reportFailure (s : State) : withoutExit (reportFailure s) = reportFailure (withoutExit s) := by
  have hs : (withoutExit s).stc.station = s.stc.station := rfl
  refine reportFailure_induct (P := fun t => withoutExit t = reportFailure (withoutExit s)) s ?_ ?_ ?_ ?_ ?_
  · intro ha hn
    rw [reportFailure_active (s := withoutExit s) ha hn]; rfl
  · intro ha hn
    rw [reportFailure_active_fourth (s := withoutExit s) ha hn]; rfl
  · intro hc hn
    rw [reportFailure_cold (s := withoutExit s) hc hn]; rfl
  · intro hc hn
    rw [reportFailure_cold_eighth (s := withoutExit s) hc hn]; rfl
  · intro ha hc
    rw [reportFailure_other (s := withoutExit s) ha hc]

omit h in
theorem withoutExit_reportClean (s : State) : withoutExit (reportClean s) = reportClean (withoutExit s) := by
  have hs : (withoutExit s).stc.station = s.stc.station := rfl
  unfold reportClean
  rw [hs]
  cases s.stc.station <;> rfl

theorem StationInv.reportClean : StationInv (reportClean s) := by
  unfold Machine.reportClean
  split
  · exact h.of_eq rfl rfl rfl rfl |>.congr rfl rfl rfl Iff.rfl .inl id
  · next hs => exact { h with pendingIn := fun _ => hs }
  all_goals exact h

/-- An echo failure keeps the accord with the driver OFF (R10, R53, R57). -/
theorem StationInv.reportFailure (ht : s.lif.tx = none) : StationInv (reportFailure s) := by
  refine reportFailure_induct (P := StationInv) s ?_ ?_ ?_ ?_ (fun _ _ => h)
  · exact fun ha _ => { h with holdIn := fun _ => ha }
  · exact fun ha _ => StationInv.enterSilent (h.of_eq rfl rfl rfl rfl |>.congr rfl rfl rfl Iff.rfl .inl id) ht
      (by show stoppable s.stc.station = true; rw [ha]; rfl)
  · exact fun hc _ => StationInv.enterListen { h with } ht (by show s.stc.station ≠ _; rw [hc]; exact nofun)
  · exact fun hc _ => StationInv.enterSilent { h with } ht (by show stoppable s.stc.station = true; rw [hc]; rfl)

omit h in
/-- The accord apart from what waits becomes the accord when the waiting change is made (R59, R63). -/
theorem StationInv.finishExit (h : StationInv (withoutExit s)) (ht : s.lif.tx = none) : StationInv (finishExit s) := by
  by_cases hr : s.stc.softReset = .waiting
  · rw [finishExit_of_reset hr]
    exact h.softReset.of_eq rfl rfl rfl rfl
  · have hapart : withoutExit s = s.withStc { s.stc with pendingExit := none } := by
      simp only [withoutExit, if_neg hr]; rfl
    cases he : s.stc.pendingExit with
    | none =>
      rw [finishExit_of_none he hr]
      rw [hapart, ← he] at h
      exact h
    | some e =>
      cases e with
      | toConfig =>
        rw [finishExit_of_toConfig he hr]
        exact stationInv_enterConfig h.tableBound hr
      | toSilent =>
        by_cases hs : stoppable s.stc.station = true
        · rw [finishExit_of_toSilent he hr hs]
          have hsame : Machine.enterSilent s = Machine.enterSilent (withoutExit s) := by
            rw [hapart]; simp only [Machine.enterSilent, he]; rfl
          rw [hsame]
          exact h.enterSilent ht hs
        · have : Machine.finishExit s = withoutExit s := by simp [Machine.finishExit, he, hr, hs, hapart]
          rw [this]
          exact h

end

/-! ### Every command -/

/-- Every outcome that is a next state meets a predicate. -/
def Yields (P : State → Prop) (o : Host.Outcome State Fault Refusal) : Prop :=
  ∀ t, o = .next t → P t

theorem yields_next {P : State → Prop} {t : State} (h : P t) : Yields P (.next t) := by
  rintro _ ⟨⟩; exact h

theorem yields_ite {P : State → Prop} {p : Prop} [Decidable p] {x y : Host.Outcome State Fault Refusal}
    (hx : p → Yields P x) (hy : Yields P y) : Yields P (if p then x else y) := by
  split
  · exact hx ‹p›
  · exact hy

section

variable {s : State} (h : StationInv s)
include h

/-- A transmit outcome: the driver goes OFF, the report is made, and what waits takes effect (R8, R59, R63). -/
theorem StationInv.execOutcome {i : Instr} (outcome : i = .echoClean ∨ i = .echoFailure ∨ i = .cut) :
    Yields StationInv (exec i s) := by
  have stay := yields_next h
  rcases outcome with rfl | rfl | rfl
  · simp only [exec, execEchoClean]
    split
    · refine yields_ite (fun _ => yields_next (StationInv.finishExit ?_ ?_)) stay
      · rw [withoutExit_reportClean]; exact h.driverOff.reportClean
      · unfold Machine.reportClean; split <;> rfl
    · exact stay
  · have hfail : ∀ (b : Bool) (x : Transmission) (u : State), StationInv u →
        StationInv (Machine.finishExit (echoFailureWith b x u)) := by
      intro b x u hu
      have hreport : (Machine.reportFailure (Machine.driverOff u)).lif.tx = none := by rw [reportFailure_lif]; rfl
      refine StationInv.finishExit ?_ ?_
      · unfold echoFailureWith
        split
        · rw [withoutExit_reportFailure, withoutExit_raise _ rfl]
          exact (hu.driverOff.raise _).reportFailure (by rw [raise_lif]; rfl)
        · rw [withoutExit_raise _ hreport, withoutExit_reportFailure]
          exact (hu.driverOff.reportFailure rfl).raise _
      · unfold echoFailureWith
        split
        · rw [reportFailure_lif, raise_lif]; rfl
        · rw [raise_lif]; exact hreport
    simp only [exec, execEchoFailure]
    split
    · refine yields_ite (fun _ => stay) (yields_ite (fun _ => ?_) ?_)
      · exact yields_next (hfail _ _ _ (h.withFreeCount _))
      · exact yields_next (hfail _ _ _ h)
    · exact stay
  · exact yields_ite (fun _ => yields_next (StationInv.finishExit (h.driverOff.withTxs _) rfl)) stay

/-- A row of the receiver, of a line timer, of a cycle boundary or of a transmit outcome keeps the accord. -/
theorem StationInv.execLine {i : Instr} (line : LineEvent i) : Yields StationInv (exec i s) := by
  have stay := yields_next h
  have hmove : ∀ (r : Receiver), r ≠ .off → s.lif.receiver ≠ .off →
      Yields StationInv (.next (s.withLif { s.lif with receiver := r })) :=
    fun r hr hs => yields_next (h.withReceiver r hr hs)
  cases i with
  | receiverSettled => exact yields_ite (fun hr => hmove _ nofun (by rw [hr]; exact nofun)) stay
  | fallingEdge => exact yields_ite (fun hr => hmove _ nofun (by rw [hr]; exact nofun)) stay
  | breakEnded => exact yields_ite (fun hr => hmove _ nofun (by rw [hr]; exact nofun)) stay
  | startBitSeen =>
    simp only [exec, execStartBitSeen]
    split
    · exact yields_next h.lineActivity
    · next hr =>
      refine yields_next (StationInv.lineActivity (StationInv.withFru (s := (useUnheard s).withLif _) ?_ _))
      rw [useUnheard_eq]
      exact (h.withFreeCount _).withLif _ (iff_of_false nofun (by simp [hr])) rfl
    · exact stay
  | characterReceived data good =>
    exact yields_ite (fun hr => yields_next (h.takeChar _ (by rw [hr]; exact nofun))) stay
  | frameEnd =>
    refine yields_ite (fun hf => ?_) stay
    split
    · exact yields_next (h.endFrame hf.2)
    · exact yields_next (h.endFrame hf.2)
    · exact yields_next (h.withLif _ Iff.rfl rfl)
    · exact stay
  | entryAged sender cls =>
    exact yields_ite (fun _ => yields_next (stationInv_standsOverTasks.ageOut _ _ _ h)) stay
  | quietLimitReached => exact yields_ite (fun _ => yields_next ((h.withRxu _).withLpt _)) stay
  | periodicTransfer => exact yields_ite (fun _ => yields_next (h.withFlt _)) stay
  | echoClean => exact h.execOutcome (.inl rfl)
  | echoFailure => exact h.execOutcome (.inr (.inl rfl))
  | cut => exact h.execOutcome (.inr (.inr rfl))
  | skipExpiry =>
    refine yields_ite (fun hs => yields_ite (fun _ => ?_) ?_) stay
    · exact yields_next (h.startSkip _ hs.1)
    · exact yields_next h.skipExpire
  | coldStartWaitExpiry =>
    refine yields_ite (fun hw => yields_next ?_) stay
    have ht : s.lif.tx = none := h.off_of (by rw [hw.2]; exact nofun) (by rw [hw.2]; exact nofun)
    exact StationInv.requestCold ((h.enterCold hw.2 hw.1).withFru _) rfl ht
  | falseStart =>
    refine yields_ite (fun hr => yields_next (StationInv.afterSample ?_)) stay
    exact h.withReceiver _ nofun (by rw [hr]; exact nofun)
  | _ => exact line.elim

/-- Every command keeps the accord, while the port counts its arguments. -/
theorem StationInv.exec (i : Instr) (hport : PortInv s) : Yields StationInv (exec i s) := by
  have stay := yields_next h
  cases hi : transactionOf i with
  | some transaction =>
    obtain ⟨c, args, payload⟩ := transaction
    rw [exec_transaction s hi]
    refine yields_next (h.transact c args payload ?_)
    rintro rfl
    cases i <;> simp_all [transactionOf]
  | none =>
    have hfull : StationInv (fullResetState s) := stationInv_reset.of_eq rfl rfl rfl rfl
    cases i with
    | fullReset level =>
      cases level with
      | low => exact yields_next (hfull.of_eq rfl rfl rfl rfl)
      | high => exact yields_ite (fun _ => yields_next hfull) stay
    | softReset => exact yields_ite (fun _ => yields_next h.softReset) stay
    | selNFall => exact yields_ite (fun _ => yields_next (h.withLpt _)) stay
    | transactionAbandoned => exact yields_ite (fun _ => yields_next h.portIdle) stay
    | transactionEnd => exact yields_ite (fun _ => yields_next h.portIdle.riseReset) stay
    | unknownCommand code =>
      exact yields_ite (fun _ => yields_next (StationInv.answer (h.withLpt _))) stay
    | portByteCompleted b => exact yields_next (h.receiveByte b hport)
    | receiverSettled | startBitSeen | characterReceived | frameEnd | entryAged | quietLimitReached | periodicTransfer
    | echoClean | echoFailure | cut | skipExpiry | coldStartWaitExpiry | fallingEdge | falseStart | breakEnded =>
      exact h.execLine trivial
    | _ => cases hi

end

/-! ### What the port has counted -/

/-- A predicate that stands over every update of a block but the Local Port's own, over the drives of the request lines, and over
a soft reset. -/
structure StandsOverLine (P : State → Prop) : Prop where
  lif : ∀ x s, P s → P (s.withLif x)
  fru : ∀ x s, P s → P (s.withFru x)
  ctr : ∀ x s, P s → P (s.withCtr x)
  stc : ∀ x s, P s → P (s.withStc x)
  txs : ∀ x s, P s → P (s.withTxs x)
  rxu : ∀ x s, P s → P (s.withRxu x)
  pmn : ∀ x s, P s → P (s.withPmn x)
  flt : ∀ x s, P s → P (s.withFlt x)
  free : ∀ x s, P s → P (s.withFreeCount x)
  dlv : ∀ s, P s → P (driveDlv s)
  sub : ∀ s, P s → P (driveSub s)
  reset : ∀ s, P s → P (softResetState s)

section

variable {P : State → Prop} (hP : StandsOverLine P) {s : State}
include hP

theorem StandsOverLine.enterSilent (h : P s) : P (enterSilent s) := hP.txs _ _ (hP.stc _ _ (hP.ctr _ _ h))

theorem StandsOverLine.enterListen (h : P s) : P (enterListen s) := hP.stc _ _ (hP.ctr _ _ h)

theorem StandsOverLine.enterActive (h : P s) : P (enterActive s) := hP.lif _ _ (hP.stc _ _ (hP.ctr _ _ h))

theorem StandsOverLine.enterConfig (h : P s) : P (enterConfig s) :=
  hP.rxu _ _ (hP.txs _ _ (hP.stc _ _ (hP.ctr _ _ (hP.fru _ _ (hP.lif _ _ h)))))

theorem StandsOverLine.raise (o : Occurrence) (h : P s) : P (raise o s) := by
  by_cases hs : Stops o.kind s
  · rw [raise_stops hs]
    unfold stoppingReport
    split_ifs
    · exact hP.stc _ _ (hP.flt _ _ h)
    · exact hP.enterSilent (hP.flt _ _ h)
    · exact hP.flt _ _ h
  · rw [raise_calm hs]; exact hP.flt _ _ h

theorem StandsOverLine.tasks : StandsOverTasks P where
  report o _ h := hP.raise o h
  receive x s h := hP.rxu x s h
  peers x s h := hP.pmn x s h
  line s h := hP.dlv s h

theorem StandsOverLine.select (n : Nat) (floor : Cls) (h : P s) : P (select n floor s).1 := by
  induction n generalizing s with
  | zero => exact h
  | succ n ih =>
    unfold Machine.select
    split
    · exact h
    · split_ifs
      · exact h
      · exact ih (hP.sub _ (hP.txs _ _ h))
      · exact hP.txs _ _ h

theorem StandsOverLine.startTransmission (k : FrameKind) (b : List Byte) (h : P s) : P (startTransmission k b s) :=
  hP.fru _ _ (hP.lif _ _ h)

theorem StandsOverLine.sendRequest (r : FrameRequest) (h : P s) : P (sendRequest r s) := by
  unfold Machine.sendRequest
  split
  · cases r with
    | fill => exact hP.startTransmission _ _ (hP.txs _ _ h)
    | data tag index last =>
      simp only
      split
      · exact hP.startTransmission _ _ (hP.txs _ _ h)
      · exact h
  · exact h

theorem StandsOverLine.phaseStart (h : P s) : P (phaseStart s) := by
  rcases phaseStart_cases s with ⟨e, -, -, -, -, he⟩ | ⟨-, he⟩
  · rw [he]; exact hP.sendRequest _ (hP.select _ _ (hP.ctr _ _ h))
  · rw [he]; exact hP.ctr _ _ h

theorem StandsOverLine.phaseEndWith (o : Config.FrameEndOrder) (w : Work) (h : P s) : P (phaseEndWith o w s) := by
  refine phaseEndWith_induct hP.pmn (fun whole p c t _ hu => hP.tasks.runTask w whole p c t hu)
    (fun _ hu => hP.phaseStart hu) o ?_
  unfold countAtEnd
  split_ifs
  · exact hP.flt _ _ (hP.ctr _ _ h)
  · exact hP.flt _ _ (hP.ctr _ _ h)
  · exact hP.flt _ _ (hP.ctr _ _ h)

theorem StandsOverLine.useOrder (w : Work) (h : P s) : P (useOrder w s) := by
  rw [useOrder_keeps]; exact hP.free _ _ h

theorem StandsOverLine.phaseEnd (w : Work) (h : P s) : P (phaseEnd w s) := hP.phaseEndWith _ w (hP.useOrder w h)

theorem StandsOverLine.dropFrame (h : P s) : P (dropFrame s) := hP.rxu _ _ (hP.fru _ _ h)

theorem StandsOverLine.trackClean (b : List Byte) (h : P s) : P (trackClean b s) := by
  unfold Machine.trackClean
  simp only
  split_ifs
  · exact hP.ctr _ _ h
  · exact hP.enterActive (hP.ctr _ _ h)
  · exact hP.ctr _ _ h
  · exact hP.ctr _ _ h

theorem StandsOverLine.endFrame (h : P s) : P (endFrame s) := by
  unfold Machine.endFrame
  split
  · exact h
  · split_ifs
    · exact hP.fru _ _ h
    · unfold ownFrameEnd
      split_ifs
      · exact hP.phaseEnd _ (hP.enterActive (hP.ctr _ _ (hP.dropFrame h)))
      · exact hP.phaseEnd _ (hP.dropFrame h)
      · exact hP.dropFrame h
    · simp only
      split
      · refine hP.phaseEndWith _ _ (hP.useOrder _ ?_)
        unfold notePeer
        simp only
        split
        · exact hP.pmn _ _ (hP.trackClean _ (hP.dropFrame h))
        · exact hP.pmn _ _ (hP.trackClean _ (hP.dropFrame h))
      · have hnoted : ∀ b x, P (noteFault b x (Machine.dropFrame s)) := by
          intro b x
          unfold noteFault
          split
          · exact hP.pmn _ _ (hP.dropFrame h)
          · exact hP.pmn _ _ (hP.dropFrame h)
          · exact hP.dropFrame h
        unfold faultFrameEnd
        simp only
        split
        · exact hP.enterListen (hP.phaseEnd _ (hnoted _ _))
        · exact hP.phaseEnd _ (hnoted _ _)

theorem StandsOverLine.dueSkip (h : P s) : P (dueSkip s) := by
  unfold Machine.dueSkip
  split
  · exact hP.phaseEnd _ (hP.fru _ _ h)
  · exact h

theorem StandsOverLine.finishExit (h : P s) : P (finishExit s) := by
  unfold Machine.finishExit
  split
  · exact hP.reset _ h
  · split
    · exact h
    · exact hP.enterConfig h
    · split
      · exact hP.enterSilent h
      · exact hP.stc _ _ h

theorem StandsOverLine.reportClean (h : P s) : P (reportClean s) := by
  unfold Machine.reportClean
  split
  · exact hP.sub _ (hP.txs _ _ (hP.lif _ _ h))
  · exact hP.ctr _ _ h
  all_goals exact h

theorem StandsOverLine.reportFailure (h : P s) : P (reportFailure s) :=
  reportFailure_induct s (fun _ _ => hP.ctr _ _ (hP.lif _ _ (hP.txs _ _ h)))
    (fun _ _ => hP.enterSilent (hP.lif _ _ (hP.txs _ _ h))) (fun _ _ => hP.enterListen (hP.stc _ _ h))
    (fun _ _ => hP.enterSilent (hP.stc _ _ h)) (fun _ _ => h)

theorem StandsOverLine.echoFailureWith (b : Bool) (x : Transmission) (h : P s) : P (echoFailureWith b x s) := by
  unfold Machine.echoFailureWith
  split
  · exact hP.reportFailure (hP.raise _ (hP.lif _ _ h))
  · exact hP.raise _ (hP.reportFailure (hP.lif _ _ h))

theorem StandsOverLine.takeChar (ch : RxChar) (h : P s) : P (takeChar ch s) := by
  unfold Machine.takeChar
  simp only
  split
  · exact hP.lif _ _ h
  · exact hP.rxu _ _ (hP.fru _ _ (hP.lif _ _ h))

theorem StandsOverLine.afterSample (h : P s) : P (afterSample s) := by
  unfold Machine.afterSample
  split_ifs
  · exact h
  · exact hP.dueSkip (hP.endFrame (hP.lif _ _ h))
  · exact hP.dueSkip h

theorem StandsOverLine.requestCold (h : P s) : P (requestCold s) := by
  unfold Machine.requestCold
  split_ifs
  · exact hP.startTransmission _ _ h
  · exact h
  · exact hP.enterListen h

/-- What stands over the updates stands over every row of the line, its timers and the cycle boundary. -/
theorem StandsOverLine.exec {i : Instr} (line : LineEvent i) (h : P s) : Yields P (exec i s) := by
  have stay := yields_next h
  cases i with
  | receiverSettled | fallingEdge | breakEnded => exact yields_ite (fun _ => yields_next (hP.lif _ _ h)) stay
  | startBitSeen =>
    simp only [Machine.exec, execStartBitSeen]
    split
    · exact yields_next (hP.ctr _ _ h)
    · rw [useUnheard_eq]
      exact yields_next (hP.ctr _ _ (hP.fru _ _ (hP.lif _ _ (hP.free _ _ h))))
    · exact stay
  | characterReceived data good => exact yields_ite (fun _ => yields_next (hP.takeChar _ h)) stay
  | frameEnd =>
    refine yields_ite (fun _ => ?_) stay
    split
    · exact yields_next (hP.endFrame h)
    · exact yields_next (hP.endFrame h)
    · exact yields_next (hP.lif _ _ h)
    · exact stay
  | entryAged sender cls => exact yields_ite (fun _ => yields_next (hP.tasks.ageOut _ _ _ h)) stay
  | quietLimitReached => exact yields_ite (fun _ => yields_next (hP.dlv _ (hP.rxu _ _ h))) stay
  | periodicTransfer => exact yields_ite (fun _ => yields_next (hP.flt _ _ h)) stay
  | echoClean =>
    simp only [Machine.exec, execEchoClean]
    split
    · exact yields_ite (fun _ => yields_next (hP.finishExit (hP.reportClean (hP.lif _ _ h)))) stay
    · exact stay
  | echoFailure =>
    simp only [Machine.exec, execEchoFailure]
    split
    · refine yields_ite (fun _ => stay) (yields_ite (fun _ => ?_) ?_)
      · exact yields_next (hP.finishExit (hP.echoFailureWith _ _ (hP.free _ _ h)))
      · exact yields_next (hP.finishExit (hP.echoFailureWith _ _ h))
    · exact stay
  | cut => exact yields_ite (fun _ => yields_next (hP.finishExit (hP.txs _ _ (hP.lif _ _ h)))) stay
  | skipExpiry => exact yields_ite (fun _ => yields_ite (fun _ => yields_next (hP.ctr _ _ h)) (yields_next (hP.phaseEnd _ (hP.fru _ _ h)))) stay
  | coldStartWaitExpiry => exact yields_ite (fun _ => yields_next (hP.requestCold (hP.fru _ _ (hP.stc _ _ (hP.ctr _ _ h))))) stay
  | falseStart => exact yields_ite (fun _ => yields_next (hP.afterSample (hP.lif _ _ h))) stay
  | _ => exact line.elim

end

theorem portInv_standsOverLine : StandsOverLine PortInv where
  lif _ s h := portInv_of_lpt (s := s) rfl rfl rfl rfl h
  fru _ s h := portInv_of_lpt (s := s) rfl rfl rfl rfl h
  ctr _ s h := portInv_of_lpt (s := s) rfl rfl rfl rfl h
  stc _ s h := portInv_of_lpt (s := s) rfl rfl rfl rfl h
  txs _ s h := portInv_of_lpt (s := s) rfl rfl rfl rfl h
  rxu _ s h := portInv_of_lpt (s := s) rfl rfl rfl rfl h
  pmn _ s h := portInv_of_lpt (s := s) rfl rfl rfl rfl h
  flt _ s h := portInv_of_lpt (s := s) rfl rfl rfl rfl h
  free _ s h := portInv_of_lpt (s := s) rfl rfl rfl rfl h
  dlv s h := portInv_of_lpt (s := s) rfl rfl rfl rfl h
  sub s h := portInv_of_lpt (s := s) rfl rfl rfl rfl h
  reset _ _ := portInv_of_outside nofun nofun

section

variable {s : State} (h : PortInv s)
include h

theorem PortInv.transact (c : Command) (args payload : List Byte) : PortInv (transact c args payload s) := by
  unfold Machine.transact
  split
  · exact portInv_answer _
  · exact h

/-- The command byte is the first byte counted, and no argument byte stands with it. -/
theorem PortInv.commandByte (b : Byte) (hs : s.lpt.state = .command) : PortInv (commandByte b s) := by
  unfold Machine.commandByte
  simp only
  split
  · exact portInv_answer _
  · split
    · exact portInv_answer _
    · refine ⟨nofun, fun _ _ => ?_⟩
      show 1 = s.lpt.args.length + 1
      rw [h.command hs]; rfl

theorem PortInv.argumentByte (b : Byte) (hs : s.lpt.state = .arguments) : PortInv (argumentByte b s) := by
  unfold Machine.argumentByte
  split
  · exact h
  · next c hc =>
    split
    · exact portInv_answer _
    · have hkept : (passOn c b s).lpt.state = .arguments ∧ (passOn c b s).lpt.command = some c := by
        unfold passOn
        simp only
        split <;> exact ⟨hs, hc⟩
      refine ⟨fun he => absurd (hkept.1.symm.trans he) nofun, fun _ hne => ?_⟩
      have hsub : c ≠ .submit := fun e => hne (by rw [hkept.2, e])
      rw [passOn_counted hsub]
      show s.lpt.byteCount + 1 = (s.lpt.args ++ [b]).length + 1
      rw [h.counted hs (by rw [hc]; simpa using hsub), List.length_append]
      rfl

theorem PortInv.receiveByte (b : Byte) : PortInv (receiveByte b s) := by
  unfold Machine.receiveByte
  split
  · exact h
  · next hs => exact h.commandByte b hs
  · next hs => exact h.argumentByte b hs
  · next hs =>
    unfold replyByte
    split
    · exact portInv_of_outside nofun nofun
    · exact portInv_of_outside nofun nofun
    · exact portInv_of_outside (by simp [hs]) (by simp [hs])
  · next hs => exact portInv_of_outside (by simp [hs]) (by simp [hs])

/-- Every command keeps what the port has counted. -/
theorem PortInv.exec (i : Instr) : Yields PortInv (exec i s) := by
  have stay := yields_next h
  have hidle : ∀ u : State, PortInv (portIdle u) := fun u => portInv_of_outside nofun nofun
  cases hi : transactionOf i with
  | some transaction => rw [exec_transaction s hi]; exact yields_next (h.transact _ _ _)
  | none =>
    cases i with
    | fullReset level =>
      cases level with
      | low => exact yields_next (portInv_of_outside nofun nofun)
      | high => exact yields_ite (fun _ => yields_next (portInv_of_outside nofun nofun)) stay
    | softReset => exact yields_ite (fun _ => yields_next (portInv_of_outside nofun nofun)) stay
    | selNFall => exact yields_ite (fun _ => yields_next ⟨fun _ => rfl, nofun⟩) stay
    | transactionAbandoned => exact yields_ite (fun _ => yields_next (hidle s)) stay
    | transactionEnd =>
      refine yields_ite (fun _ => yields_next ?_) stay
      unfold riseReset
      split_ifs
      · exact portInv_standsOverLine.stc _ _ (hidle s)
      · exact portInv_standsOverLine.reset _ (hidle s)
      · exact hidle s
    | unknownCommand code => exact yields_ite (fun _ => yields_next (portInv_answer _)) stay
    | portByteCompleted b => exact yields_next (h.receiveByte b)
    | receiverSettled | startBitSeen | characterReceived | frameEnd | entryAged | quietLimitReached | periodicTransfer
    | echoClean | echoFailure | cut | skipExpiry | coldStartWaitExpiry | fallingEdge | falseStart | breakEnded =>
      exact portInv_standsOverLine.exec trivial h
    | _ => cases hi

end

end Sys2Proof.Machine

namespace Sys2Proof.Proofs

open Sys2Proof.Machine

/-- Settles O58: every shared operation keeps the accord, and so does each command made of them; a TABLE has the entries it
counts because the port counts its argument bytes. -/
theorem stationKeptByStep : Obligations.StationKeptByStep := by
  intro s t hstep hport
  unfold step at hstep
  split at hstep
  · cases hstep
    exact ⟨hport, id⟩
  · next rest hs =>
    have hport' : PortInv (s.withPending rest) := portInv_of_lpt (s := s) rfl rfl rfl rfl hport
    exact ⟨hport'.exec _ t hstep, fun h => (h.withPending _).exec _ hport' t hstep⟩

end Sys2Proof.Proofs
end

section
/-! SUPPORT. The values after the full reset, TABLE, and the expiry of the cold-start wait (R24, R25, R41, R51, R54, R64). -/

namespace Sys2Proof.Machine

/-! ### The digest of a table (R25) -/

theorem digestShift_digestShift (r : Byte) : DigestShift r (digestShift r) := by
  have hbit : r.getLsbD 7 = true ↔ ¬ r.toNat < 2 ^ 7 := by
    rw [← show r.msb = r.getLsbD 7 from BitVec.msb_eq_getLsbD_last r, BitVec.msb_eq_decide, decide_eq_true_eq, not_lt]
  have hshift : (r <<< 1).toNat = 2 * r.toNat % 2 ^ 8 := by
    rw [BitVec.toNat_shiftLeft, Nat.shiftLeft_eq, Nat.mul_comm]
  have hlt := r.isLt
  unfold DigestShift digestShift
  by_cases h : r.toNat < 2 ^ 7
  · rw [if_pos h, if_neg (by rw [hbit]; exact not_not.mpr h), hshift]
    omega
  · rw [if_neg h, if_pos (hbit.mpr h), BitVec.toNat_xor, hshift,
      show 2 * r.toNat % 2 ^ 8 = 2 * r.toNat - 2 ^ 8 by omega]
    rfl

theorem digestStep_digestByte (b r : Byte) : DigestStep b r (digestByte r b) :=
  steps_foldl (g := fun r _ => digestShift r) (fun _ r => digestShift_digestShift r) (List.range 8) (r ^^^ b)

/-- The entry of an argument byte holds its owner and its floor (10, TABLE). -/
theorem entryOf_val {b : Byte} (h : b.toNat / 4 ≤ 31) :
    ((entryOf b).owner.val, (entryOf b).floor.val) = (b.toNat / 4, b.toNat % 4) := by
  have : b.toNat / 4 % 32 = b.toNat / 4 := Nat.mod_eq_of_lt (by omega)
  exact Prod.ext this rfl

/-- The byte of an entry is the argument byte it came from (R24, R25). -/
theorem entryByte_entryOf {b : Byte} (h : b.toNat / 4 ≤ 31) : entryByte (entryOf b) = b := by
  have hv := entryOf_val h
  simp only [Prod.mk.injEq] at hv
  refine BitVec.eq_of_toNat_eq ?_
  have hlt := b.isLt
  rw [entryByte, hv.1, hv.2, BitVec.toNat_ofNat]
  omega

/-- The digest of a table written by TABLE runs over L and the entry bytes (R25). -/
theorem tableDigest_map_entryOf {length : Byte} {entries : List Byte} (hn : entries.length = length.toNat)
    (h : ∀ b ∈ entries, b.toNat / 4 ≤ 31) :
    tableDigest (entries.map entryOf) = (length :: entries).foldl digestByte 0 := by
  have hbytes : (entries.map entryOf).map entryByte = entries := by
    rw [List.map_map]
    exact (List.map_congr_left fun b hb => entryByte_entryOf (h b hb)).trans (List.map_id _)
  rw [tableDigest, hbytes, List.length_map, hn]
  simp

/-! ### TABLE (R24) -/

section

variable {args payload : List Byte} {s : State}

theorem decideTable_busy (h : s.stc.station ≠ .config) :
    decideTable (receiveAll .table args payload s) = refuse .busy (receiveAll .table args payload s) := if_pos h

theorem decideTable_rejected (hs : s.stc.station = .config)
    (h : arg args 0 = 0 ∨ 64 < arg args 0 ∨ ∃ b ∈ args.drop 1, 31 < b.toNat / 4) :
    decideTable (receiveAll .table args payload s) = refuse .rejected (receiveAll .table args payload s) := by
  have hs' : ¬ (receiveAll .table args payload s).stc.station ≠ .config := not_not.mpr hs
  unfold decideTable
  rw [if_neg hs']
  split
  · rfl
  · next hl =>
    obtain ⟨b, hb, hlt⟩ := (h.resolve_left fun h0 => hl (.inl h0)).resolve_left fun h64 => hl (.inr h64)
    refine if_neg fun hall => ?_
    have := List.all_eq_true.mp hall b hb
    simp only [entryInRange, decide_eq_true_eq] at this
    omega

theorem decideTable_ok (hs : s.stc.station = .config) (h1 : 1 ≤ arg args 0) (h64 : arg args 0 ≤ 64)
    (h : ∀ b ∈ args.drop 1, b.toNat / 4 ≤ 31) :
    decideTable (receiveAll .table args payload s) =
      grant [] (applyTable ((args.drop 1).map entryOf) (receiveAll .table args payload s)) := by
  unfold decideTable
  have hl : ¬ (arg args 0 = 0 ∨ 64 < arg args 0) := by omega
  have hall : (args.drop 1).all entryInRange = true :=
    List.all_eq_true.mpr fun b hb => by simpa [entryInRange] using h b hb
  rw [if_neg (show ¬ (receiveAll .table args payload s).stc.station ≠ .config from not_not.mpr hs)]
  exact (if_neg hl).trans (if_pos hall)

end

/-- The Peer Monitor derived from a table, record by record (R132). -/
theorem derivedPeers_derivePeers (table : List PhaseEntry) (own : Addr) :
    DerivedPeers table own (derivePeers table own) := by
  intro a
  simp [derivePeers, derivedPresence, ownedCount]

/-! ### The lowest owned phase (R26) -/

/-- The lowest phase that the station owns is the one no lower phase of its own precedes. -/
theorem lowestOwned_eq {s : State} {p : Phase}
    (owns : (s.ctr.table[p.val]?.map PhaseEntry.owner) = some s.cfg.ownAddress)
    (lowest : ∀ q < p, (s.ctr.table[q.val]?.map PhaseEntry.owner) ≠ some s.cfg.ownAddress) : lowestOwned s = p := by
  obtain ⟨e, he, ho⟩ := Option.map_eq_some_iff.mp owns
  obtain ⟨hlt, hget⟩ := List.getElem?_eq_some_iff.mp he
  have hfind : (s.ctr.table.findIdx fun e => e.owner == s.cfg.ownAddress) = p.val := by
    rw [List.findIdx_eq hlt]
    refine ⟨by simp [hget, ho], fun j hj => ?_⟩
    have hq := lowest ⟨j, by omega⟩ hj
    simp only [List.getElem?_eq_getElem (show j < s.ctr.table.length by omega), Option.map_some, ne_eq,
      Option.some.injEq] at hq
    simpa using hq
  refine Fin.ext ?_
  show (List.findIdx _ _) % 64 = _
  rw [hfind]
  exact Nat.mod_eq_of_lt p.isLt

/-! ### COLD_START_WAIT_EXPIRY (R41, R51, R54) -/

/-- The state in which the COLD frame is asked for: the wait stopped, the station in COLD, and an unheard own frame over. -/
def askingCold (s : State) : State :=
  dropUnheard ((s.withCtr { s.ctr with coldWait := none }).withStc { s.stc with station := .cold })

section

variable {s : State}

theorem exec_coldStartWaitExpiry (hs : s.stc.station = .listen) (hw : s.ctr.coldWait ≠ none) :
    exec .coldStartWaitExpiry s = .next (requestCold (askingCold s)) :=
  if_pos ⟨Option.isSome_iff_ne_none.mpr hw, hs⟩

theorem exec_coldStartWaitExpiry_stay (h : s.stc.station ≠ .listen ∨ s.ctr.coldWait = none) :
    exec .coldStartWaitExpiry s = .next s := by
  refine if_neg fun ⟨hw, hs⟩ => ?_
  rcases h with h | h
  · exact h hs
  · simp [h] at hw

theorem requestCold_idle (h : s.lif.receiver = .idle) :
    requestCold s = startTransmission .cold (coldBytes s) s := if_pos h

theorem requestCold_gathering (hr : s.lif.receiver ≠ .idle) (h : gathering s = true) : requestCold s = s := by
  rw [requestCold, if_neg hr, if_pos h]

theorem requestCold_back (hr : s.lif.receiver ≠ .idle) (h : gathering s = false) : requestCold s = enterListen s := by
  rw [requestCold, if_neg hr, if_neg (by simp [h])]

theorem lowestOwned_askingCold (s : State) : lowestOwned (askingCold s) = lowestOwned s := rfl

/-- A COLD frame takes both pending insertions (R22). -/
theorem insertions_cold (x : Fru) : insertionsFor .cold x = ⟨x.testPattern, x.testCrc⟩ ∧
    insertionsUsed .cold x = { x with testPattern := false, testCrc := false } := by
  cases x with | mk frame testPattern testCrc => cases testPattern <;> exact ⟨rfl, rfl⟩

end

end Sys2Proof.Machine

namespace Sys2Proof.Proofs

open Sys2Proof.Machine

/-- Settles O3: each value of the reset tables. -/
theorem resetValues : Obligations.ResetValues := by
  refine ⟨⟨rfl, rfl, rfl, fun _ => rfl, rfl⟩, ⟨rfl, rfl, rfl⟩, ⟨rfl, rfl, rfl, rfl, rfl, rfl, rfl, rfl, rfl, rfl⟩,
    ⟨rfl, rfl, rfl, rfl, rfl⟩, ⟨rfl, rfl, fun k => ?_, rfl, rfl, rfl, rfl⟩, ⟨rfl, rfl, rfl, rfl, rfl, rfl⟩, fun a => ?_,
    ⟨rfl, rfl, rfl, rfl, rfl, rfl, rfl, rfl⟩, ⟨rfl, rfl, rfl, rfl, rfl, by decide⟩,
    ⟨rfl, rfl, rfl, rfl, by decide, rfl, rfl, rfl, rfl, rfl, rfl, rfl, rfl, rfl, rfl, rfl, rfl, rfl⟩⟩
  · simp [State.reset]
  · simp [State.reset]

/-- Settles O11: the decision of TABLE by its branches; the entries spell the argument bytes, so the digest runs over them. -/
theorem table : Obligations.Table := by
  intro length entries s hw
  have hexec := exec_takeable (i := .table length entries) rfl hw
  have hcount : entries.length = length.toNat := by
    have := awaits_counted (s := s) (args := length :: entries) (payload := []) hw.1
    simp only [List.length_cons, List.length_nil, arg, byteAt, List.getD_cons_zero] at this
    omega
  refine ⟨fun hs => ⟨_, hexec, ?_⟩, fun hs hl => ⟨_, hexec, ?_⟩, fun hs h1 h64 he => ⟨_, hexec, ?_⟩⟩
  · rw [show decideCommand .table = decideTable from rfl, decideTable_busy hs]
    exact onlyAnswered_refuse ..
  · have hl' : arg (length :: entries) 0 = 0 ∨ 64 < arg (length :: entries) 0 ∨
        ∃ b ∈ (length :: entries).drop 1, 31 < b.toNat / 4 := hl.imp_left (congrArg BitVec.toNat)
    rw [show decideCommand .table = decideTable from rfl, decideTable_rejected hs hl']
    exact onlyAnswered_refuse ..
  · rw [show decideCommand .table = decideTable from rfl, decideTable_ok (args := length :: entries) hs h1 h64 he]
    refine ⟨⟨rfl, rfl, rfl⟩, (List.length_map _).trans hcount, ?_, rfl, ?_, derivedPeers_derivePeers _ _, rfl,
      ⟨rfl, rfl, rfl⟩, fun x hx => ?_, rfl⟩
    · show (entries.map entryOf).map _ = _
      rw [List.map_map]
      exact List.map_congr_left fun b hb => entryOf_val (he b hb)
    · show Steps DigestStep (length :: entries) 0 (tableDigest (entries.map entryOf))
      rw [tableDigest_map_entryOf hcount he]
      exact steps_foldl (step := DigestStep) (g := digestByte) digestStep_digestByte (length :: entries) 0
    · cases x <;> simp at hx <;> rfl

/-- Settles O44: the COLD frame by the receiver and the frame on the line. -/
theorem coldStartWaitExpiry : Obligations.ColdStartWaitExpiry := by
  intro s
  refine ⟨?_, ?_, ?_, exec_coldStartWaitExpiry_stay⟩
  · intro hs hw hr p ho hlow _
    have hr' : (askingCold s).lif.receiver = .idle := hr
    rw [exec_coldStartWaitExpiry hs hw, requestCold_idle hr', coldBytes, lowestOwned_askingCold,
      lowestOwned_eq ho hlow, startTransmission, (insertions_cold _).1, (insertions_cold _).2]
    rfl
  · intro f hs hw hr hf hb
    have hr' : (askingCold s).lif.receiver ≠ .idle := hr
    have hframe : s.fru.frame.filter Gather.begun = s.fru.frame := by rw [hf, Option.filter_some, hb, if_pos rfl]
    have hgather : gathering (askingCold s) = true := by
      simp only [gathering, askingCold, dropUnheard_fru, State.withStc_fru, State.withCtr_fru, hframe]
      rw [hf]; exact hb
    rw [exec_coldStartWaitExpiry hs hw, requestCold_gathering hr' hgather, askingCold, dropUnheard]
    simp only [State.withStc_fru, State.withCtr_fru, hframe]
    rfl
  · intro hs hw hr hf ho
    have hnone : s.fru.frame.filter Gather.begun = none := by
      cases hx : s.fru.frame with
      | none => rfl
      | some f => simp [hf f hx]
    have hgather : gathering (askingCold s) = false := by
      simp only [gathering, askingCold, dropUnheard_fru, State.withStc_fru, State.withCtr_fru, hnone]
    have hr' : (askingCold s).lif.receiver ≠ .idle := hr
    have howns : startColdWait (askingCold s) = some (48 + 8 * s.cfg.ownAddress.val) :=
      if_pos ((any_owner_iff _ _).mpr ho)
    rw [exec_coldStartWaitExpiry hs hw, requestCold_back hr' hgather, enterListen, howns]
    simp only [askingCold, dropUnheard, State.withStc_fru, State.withCtr_fru, hnone]
    have hstc : { s.stc with station := Station.listen } = s.stc := by rw [← hs]
    exact congrArg (fun x => Host.Outcome.next { s with
      ctr := { State.reset.ctr with table := s.ctr.table, digest := s.ctr.digest,
                                    coldWait := some (48 + 8 * s.cfg.ownAddress.val) }
      fru := { s.fru with frame := none }
      stc := x }) hstc

end Sys2Proof.Proofs
end

section
/-! SUPPORT. A phase end with no frame of another station: a skip expiry, and the frame end of an own frame (R11, R29, R31, R35,
R44). -/

namespace Sys2Proof.Machine

variable {s : State}

/-! ### A phase end inside a cycle with no work -/

/-- A raise by 0 leaves the counter as it is (R158). -/
@[simp] theorem countErrors_zero (f : Flt) : countErrors 0 f = f := by
  have hlt : ¬ 65535 < f.lineErrors.toNat + 0 := by have := f.lineErrors.isLt; omega
  rw [countErrors, if_neg hlt, Nat.add_zero, BitVec.ofNat_toNat, BitVec.setWidth_eq]

theorem endsCycle_eq_true_iff : endsCycle s = true ↔ LastPhase s := by
  simp [endsCycle, tableLength, LastPhase]

theorem MidCycle.not_endsCycle (h : MidCycle s) : endsCycle s = false :=
  endsCycle_eq_false fun hl => by have := h.2; have := hl.2; omega

/-- A phase that is not offered: the skip timer alone is started (R28). -/
theorem phaseStart_of_not_offered
    (h : (s.ctr.table[s.ctr.p.val]?.map PhaseEntry.owner) ≠ some s.cfg.ownAddress ∨ s.stc.station ≠ .active ∨
      s.ctr.hold = true) : phaseStart s = s.withCtr { s.ctr with skip := .running 2 } := by
  rcases phaseStart_cases s with ⟨e, he, ho, hs, hh, -⟩ | ⟨-, he⟩
  · rcases h with h | h | h
    · simp [he, ho] at h
    · exact absurd hs h
    · simp [hh] at h
  · exact he

/-- A phase end with no work inside a cycle begins the next phase, and that is all (R31). -/
theorem phaseEnd_nothing (hm : MidCycle s) :
    phaseEnd .nothing s = phaseStart (s.withCtr { s.ctr with p := phaseAfter s.ctr.p }) := by
  rw [phaseEnd_inside hm.not_endsCycle rfl rfl]
  simp only [hm.1, if_true, advanced_inside hm.not_endsCycle, Work.nothing, Option.toList_none, raiseAll_nil,
    countErrors_zero]
  rfl

/-- The next phase of a cycle is not the station's to use: no own phase, or a station out of ACTIVE or in HOLD (R28). -/
def NextStands (s : State) : Prop :=
  (s.ctr.table[s.ctr.p.val + 1]?.map PhaseEntry.owner) ≠ some s.cfg.ownAddress ∨ s.stc.station ≠ .active ∨
    s.ctr.hold = true

theorem phaseAfter_val {p : Phase} (h : p.val < 63) : (phaseAfter p).val = p.val + 1 :=
  Nat.mod_eq_of_lt (by omega)

/-- With the next phase not offered, a phase end with no work moves the Cycle Tracker alone. -/
theorem phaseEnd_nothing_stands (hm : MidCycle s) (hp : s.ctr.p.val < 63) (h : NextStands s) :
    phaseEnd .nothing s = s.withCtr { s.ctr with p := phaseAfter s.ctr.p, skip := .running 2 } := by
  rw [phaseEnd_nothing hm, phaseStart_of_not_offered]
  · rfl
  · show (s.ctr.table[(phaseAfter s.ctr.p).val]?.map PhaseEntry.owner) ≠ _ ∨ _
    rw [phaseAfter_val hp]
    exact h

/-! ### SKIP_EXPIRY (R29) -/

theorem SkipTimer.isRunning_iff (x : SkipTimer) : x.isRunning = true ↔ ∃ ct, x = .running ct := by
  cases x <;> simp [SkipTimer.isRunning]

theorem exec_skipExpiry_free {ct : Nat} (ha : s.ctr.aligned = true) (hs : s.ctr.skip = .running ct)
    (ht : s.lif.tx = none) (hr : s.lif.receiver ≠ .character false) : exec .skipExpiry s = .next (skipExpire s) := by
  have : exec .skipExpiry s = execSkipExpiry s := rfl
  rw [this, execSkipExpiry, if_pos ⟨ha, (SkipTimer.isRunning_iff _).mpr ⟨ct, hs⟩, ht⟩, if_neg hr]

theorem exec_skipExpiry_edge {ct : Nat} (ha : s.ctr.aligned = true) (hs : s.ctr.skip = .running ct)
    (ht : s.lif.tx = none) (hr : s.lif.receiver = .character false) :
    exec .skipExpiry s = .next (s.withCtr { s.ctr with skip := .awaitingSample }) := by
  have : exec .skipExpiry s = execSkipExpiry s := rfl
  rw [this, execSkipExpiry, if_pos ⟨ha, (SkipTimer.isRunning_iff _).mpr ⟨ct, hs⟩, ht⟩, if_pos hr]

theorem exec_skipExpiry_stay (h : (∀ ct, s.ctr.skip ≠ .running ct) ∨ s.ctr.aligned = false) :
    exec .skipExpiry s = .next s := by
  refine if_neg fun ⟨ha, hs, _⟩ => ?_
  obtain ⟨ct, hct⟩ := (SkipTimer.isRunning_iff _).mp hs
  rcases h with h | h
  · exact h ct hct
  · simp [ha] at h

/-- The skip expiry that waited for the middle sample of an edge comes with a false start (R29). -/
theorem exec_falseStart_skip (hs : s.ctr.skip = .awaitingSample) (ht : s.lif.tx = none)
    (hr : s.lif.receiver = .character false) (hd : s.lif.frameEndDue = false) :
    exec .falseStart s = .next (skipExpire (s.withLif { s.lif with receiver := .idle })) := by
  rw [exec_falseStart_edge hr, afterSample]
  simp [ht, hd, dueSkip, hs]

/-- With no frame on the line there is none to drop. -/
theorem dropUnheard_of_none (h : s.fru.frame = none) : dropUnheard s = s := by
  have : { s.fru with frame := s.fru.frame.filter Gather.begun } = s.fru := by
    rw [h, Option.filter_none, ← h]
  rw [dropUnheard, this]
  rfl

/-! ### The frame end of an own frame (R11, R35) -/

theorem endFrame_own {f : Gather} (hf : s.fru.frame = some f) (hb : f.begun = true) (ho : f.own = true) :
    endFrame s = ownFrameEnd (dropFrame s) := by
  simp [endFrame, hf, hb, ho]

theorem ownFrameEnd_cold (h : s.ctr.coldAlignPending = true) :
    ownFrameEnd s = phaseEnd .nothing (enterActive (s.withCtr (alignTo (lowestOwned s) 0 s.ctr))) := if_pos h

theorem ownFrameEnd_aligned (h : s.ctr.coldAlignPending = false) (ha : s.ctr.aligned = true) :
    ownFrameEnd s = phaseEnd .nothing s := by
  rw [ownFrameEnd, if_neg (by simp [h]), if_pos ha]

theorem ownFrameEnd_unaligned (h : s.ctr.coldAlignPending = false) (ha : s.ctr.aligned = false) : ownFrameEnd s = s := by
  rw [ownFrameEnd, if_neg (by simp [h]), if_neg (by simp [ha])]

end Sys2Proof.Machine

namespace Sys2Proof.Proofs

open Sys2Proof.Machine

/-- Settles O39: the skip expiry, at once or at the false start it waited for, ends a phase with no work. -/
theorem skipExpiryInsideCycle : Obligations.SkipExpiryInsideCycle := by
  intro s after notOffered
  refine ⟨?_, ?_, ?_, exec_skipExpiry_stay⟩
  · intro ct hm hp hs ht hr hf hn
    rw [exec_skipExpiry_free hm.1 hs ht hr, skipExpire, dropUnheard_of_none hf, phaseEnd_nothing_stands hm hp hn]
    rfl
  · intro ct ha hs ht hr
    exact exec_skipExpiry_edge ha hs ht hr
  · intro hm hp hs ht hr hd hf hn
    have hf' : (s.withLif { s.lif with receiver := .idle }).fru.frame = none := hf
    have hstands := phaseEnd_nothing_stands (s := s.withLif { s.lif with receiver := .idle }) hm hp hn
    rw [exec_falseStart_skip hs ht hr hd, skipExpire, dropUnheard_of_none hf', hstands]
    rfl

/-- Settles O38: the COLD alignment on the lowest owned phase, or the end of the phase, with no work. -/
theorem ownFrameEnds : Obligations.OwnFrameEnds := by
  intro f s hf hb ho hfree
  have hexec : exec .frameEnd s = .next (ownFrameEnd (dropFrame s)) := by
    rw [exec_frameEnd_free hfree, endFrame_own hf hb ho]
  refine ⟨?_, ?_, ?_⟩
  · intro p hs hpending howns hlow hlt hbound
    have hlowest : lowestOwned (dropFrame s) = p := lowestOwned_eq (s := dropFrame s) howns hlow
    have hm : MidCycle (enterActive ((dropFrame s).withCtr (alignTo p 0 (dropFrame s).ctr))) := ⟨rfl, hlt⟩
    refine ⟨_, hexec, ?_⟩
    rw [ownFrameEnd_cold (s := dropFrame s) hpending, hlowest, phaseEnd_nothing hm]
    refine ⟨by simp [enterActive, alignTo], ?_, ?_⟩
    · rw [phaseStart_ctr]
      exact phaseAfter_val (p := p) (by omega)
    · simp [enterActive, alignTo, dropFrame]
  · intro hpending hm hp hn
    have hm' : MidCycle (dropFrame s) := hm
    rw [hexec, ownFrameEnd_aligned (s := dropFrame s) hpending hm.1, phaseEnd_nothing_stands hm' hp hn]
    rfl
  · intro hpending ha
    rw [hexec, ownFrameEnd_unaligned (s := dropFrame s) hpending ha]
    rfl

end Sys2Proof.Proofs
end

section
/-! SUPPORT. What the tasks of a phase end report: fault occurrences in their order, beside changes to the Receive Unit, the Peer
Monitor and DLV_REQ, which have no part in them. -/

namespace Sys2Proof.Machine

/-! ### Occurrences beside the other blocks -/

section

variable (o : Occurrence) (s : State)

theorem stoppingReport_withRxu (x : Rxu) : stoppingReport (s.withRxu x) = (stoppingReport s).withRxu x := by
  unfold stoppingReport
  simp only [State.withRxu_stc, State.withRxu_lif, apply_ite (fun u : State => u.withRxu x)]
  rfl

theorem raise_withRxu (x : Rxu) : raise o (s.withRxu x) = (raise o s).withRxu x := by
  by_cases h : Stops o.kind s
  · rw [raise_stops h, raise_stops (s := s.withRxu x) h]
    exact stoppingReport_withRxu (s.withFlt _) x
  · rw [raise_calm h, raise_calm (s := s.withRxu x) h]
    rfl

theorem stoppingReport_withPmn (x : Pmn) : stoppingReport (s.withPmn x) = (stoppingReport s).withPmn x := by
  unfold stoppingReport
  simp only [State.withPmn_stc, State.withPmn_lif, apply_ite (fun u : State => u.withPmn x)]
  rfl

theorem raise_withPmn (x : Pmn) : raise o (s.withPmn x) = (raise o s).withPmn x := by
  by_cases h : Stops o.kind s
  · rw [raise_stops h, raise_stops (s := s.withPmn x) h]
    exact stoppingReport_withPmn (s.withFlt _) x
  · rw [raise_calm h, raise_calm (s := s.withPmn x) h]
    rfl

theorem stoppingReport_withLpt (x : Lpt) : stoppingReport (s.withLpt x) = (stoppingReport s).withLpt x := by
  unfold stoppingReport
  simp only [State.withLpt_stc, State.withLpt_lif, apply_ite (fun u : State => u.withLpt x)]
  rfl

theorem raise_withLpt (x : Lpt) : raise o (s.withLpt x) = (raise o s).withLpt x := by
  by_cases h : Stops o.kind s
  · rw [raise_stops h, raise_stops (s := s.withLpt x) h]
    exact stoppingReport_withLpt (s.withFlt _) x
  · rw [raise_calm h, raise_calm (s := s.withLpt x) h]
    rfl

end

theorem raiseAll_append (os os' : List Occurrence) (s : State) :
    raiseAll (os ++ os') s = raiseAll os' (raiseAll os s) := List.foldl_append ..

section

variable (os : List Occurrence) (s : State)

theorem raiseAll_withRxu (x : Rxu) : raiseAll os (s.withRxu x) = (raiseAll os s).withRxu x := by
  induction os generalizing s with
  | nil => rfl
  | cons o os ih => rw [raiseAll_cons, raise_withRxu, ih]; rfl

theorem raiseAll_withPmn (x : Pmn) : raiseAll os (s.withPmn x) = (raiseAll os s).withPmn x := by
  induction os generalizing s with
  | nil => rfl
  | cons o os ih => rw [raiseAll_cons, raise_withPmn, ih]; rfl

theorem raiseAll_withLpt (x : Lpt) : raiseAll os (s.withLpt x) = (raiseAll os s).withLpt x := by
  induction os generalizing s with
  | nil => rfl
  | cons o os ih => rw [raiseAll_cons, raise_withLpt, ih]; rfl

end

/-! ### Reports -/

/-- From `s` to `t` occurrences were reported in their order; beside them the Receive Unit, the Peer Monitor and DLV_REQ alone
may have changed. -/
structure Reported (os : List Occurrence) (s t : State) : Prop where
  eq : t = (((raiseAll os s).withRxu t.rxu).withPmn t.pmn).withLpt t.lpt
  lines : t.lpt = { s.lpt with dlvReq := t.lpt.dlvReq }

theorem Reported.refl (s : State) : Reported [] s s := ⟨rfl, rfl⟩

theorem reported_raiseAll (os : List Occurrence) (s : State) : Reported os s (raiseAll os s) := ⟨rfl, by simp⟩

theorem reported_raise (o : Occurrence) (s : State) : Reported [o] s (raise o s) := reported_raiseAll [o] s

theorem reported_withRxu (s : State) (x : Rxu) : Reported [] s (s.withRxu x) := ⟨rfl, rfl⟩

theorem reported_withPmn (s : State) (x : Pmn) : Reported [] s (s.withPmn x) := ⟨rfl, rfl⟩

theorem reported_driveDlv (s : State) : Reported [] s (driveDlv s) := ⟨rfl, rfl⟩

theorem Reported.trans {os os' : List Occurrence} {s t u : State} (h : Reported os s t) (h' : Reported os' t u) :
    Reported (os ++ os') s u where
  eq := by
    have e := h'.eq
    rw [h.eq, raiseAll_withLpt, raiseAll_withPmn, raiseAll_withRxu, ← raiseAll_append] at e
    exact e
  lines := by
    have e := h'.lines
    rw [h.lines] at e
    exact e

section

variable {os : List Occurrence} {s t : State} (h : Reported os s t)
include h

theorem Reported.flt : t.flt = recordedAll s.cfg.masks os s.flt := by rw [h.eq]; exact raiseAll_flt os s
theorem Reported.lif : t.lif = s.lif := by rw [h.eq]; exact raiseAll_lif s os
theorem Reported.fru : t.fru = s.fru := by rw [h.eq]; exact raiseAll_fru s os
theorem Reported.cfg : t.cfg = s.cfg := by rw [h.eq]; exact raiseAll_cfg s os
theorem Reported.rstLow : t.rstLow = s.rstLow := by rw [h.eq]; exact raiseAll_rstLow s os
theorem Reported.freeCount : t.freeCount = s.freeCount := by rw [h.eq]; exact raiseAll_freeCount s os
theorem Reported.pending : t.pending = s.pending := by rw [h.eq]; exact raiseAll_pending s os
theorem Reported.ctr : t.ctr = (raiseAll os s).ctr := by rw [h.eq]; rfl
theorem Reported.stc : t.stc = (raiseAll os s).stc := by rw [h.eq]; rfl
theorem Reported.txs : t.txs = (raiseAll os s).txs := by rw [h.eq]; rfl

/-- Reports leave the table, its digest, the alignment, p, c, the whole-cycle flag and the skip timer as they are. -/
theorem Reported.tracked :
    t.ctr = { s.ctr with hold := t.ctr.hold, coldWait := t.ctr.coldWait, coldAlignPending := t.ctr.coldAlignPending } := by
  rw [h.ctr]
  refine raiseAll_induct (P := fun u => u.ctr = { s.ctr with
    hold := u.ctr.hold, coldWait := u.ctr.coldWait, coldAlignPending := u.ctr.coldAlignPending }) (fun o u hu => ?_) os s rfl
  rcases raise_ctr u o with e | e <;> rw [e]
  · exact hu
  · rw [hu]

/-- Reports leave HOLD clear. -/
theorem Reported.hold (hs : s.ctr.hold = false) : t.ctr.hold = false := by
  rw [h.ctr]
  refine raiseAll_induct (P := fun u => u.ctr.hold = false) (fun o u hu => ?_) os s hs
  rcases raise_ctr u o with e | e <;> rw [e]
  exact hu

end

/-! ### The station over a run of reports -/

/-- Whether an occurrence is STOPPING and unmasked, in numbers. -/
theorem stops_iff (k : FaultKind) (s : State) :
    Stops k s ↔ (!hasKind s.cfg.masks k && hasKind s.cfg.severities k) = true := by simp [Stops]

/-- Nothing of a run stops the station: the Fault Unit alone changes. -/
theorem raiseAll_calm {os : List Occurrence} {s : State} (h : ∀ o ∈ os, ¬ Stops o.kind s) :
    raiseAll os s = s.withFlt (recordedAll s.cfg.masks os s.flt) := by
  induction os generalizing s with
  | nil => rfl
  | cons o os ih =>
    rw [raiseAll_cons, raise_calm (h o (by simp)), ih (s := s.withFlt (recorded s.cfg.masks o s.flt)) fun x hx => h x (by simp [hx])]
    rfl

/-- Out of the states that a STOPPING fault leaves, the Fault Unit alone changes (R58). -/
theorem raiseAll_unstoppable (os : List Occurrence) {s : State} (h : stoppable s.stc.station = false) :
    raiseAll os s = s.withFlt (recordedAll s.cfg.masks os s.flt) := by
  have hreport : ∀ u : State, stoppable u.stc.station = false → stoppingReport u = u := by
    intro u hu; rw [stoppingReport, if_neg (by simp [hu])]
  induction os generalizing s with
  | nil => rfl
  | cons o os ih =>
    have hone : raise o s = s.withFlt (recorded s.cfg.masks o s.flt) := by
      by_cases hs : Stops o.kind s
      · rw [raise_stops hs, hreport (s.withFlt (recorded s.cfg.masks o s.flt)) h]
      · exact raise_calm hs
    rw [raiseAll_cons, hone, ih (s := s.withFlt (recorded s.cfg.masks o s.flt)) h]
    rfl

/-- With the driver OFF, a run with a STOPPING fault leads from LISTEN, COLD or ACTIVE to SILENT (R58). -/
theorem raiseAll_stops {os : List Occurrence} {s : State} (ht : s.lif.tx = none) (hs : stoppable s.stc.station = true)
    (h : ∃ o ∈ os, Stops o.kind s) :
    raiseAll os s = (enterSilent s).withFlt (recordedAll s.cfg.masks os s.flt) := by
  induction os generalizing s with
  | nil => obtain ⟨o, ho, -⟩ := h; cases ho
  | cons o os ih =>
    by_cases hstop : Stops o.kind s
    · have hone : raise o s = (enterSilent s).withFlt (recorded s.cfg.masks o s.flt) := by
        have hs' : stoppable (s.withFlt (recorded s.cfg.masks o s.flt)).stc.station = true := hs
        rw [raise_stops hstop, stoppingReport_off (by exact ht), if_pos hs']
        rfl
      rw [raiseAll_cons, hone, raiseAll_unstoppable os (s := (enterSilent s).withFlt _) rfl]
      rfl
    · obtain ⟨x, hx, hx'⟩ := h
      have hrest : ∃ o ∈ os, Stops o.kind (s.withFlt (recorded s.cfg.masks o s.flt)) := by
        rcases List.mem_cons.mp hx with rfl | hx
        · exact absurd hx' hstop
        · exact ⟨x, hx, hx'⟩
      rw [raiseAll_cons, raise_calm hstop, ih (s := s.withFlt (recorded s.cfg.masks o s.flt)) ht hs ⟨_, hrest.choose_spec.1, hrest.choose_spec.2⟩]
      rfl

/-- With the driver ON, a run of reports changes the Fault Unit, and the change that waits for the cut (R59). -/
theorem raiseAll_on {os : List Occurrence} {s : State} (ht : s.lif.tx ≠ none) :
    ∃ e, raiseAll os s = (s.withFlt (recordedAll s.cfg.masks os s.flt)).withStc { s.stc with pendingExit := e } ∧
      ((∀ o ∈ os, ¬ Stops o.kind s) → e = s.stc.pendingExit) ∧
      (stoppable s.stc.station = true → (∃ o ∈ os, Stops o.kind s) → e ≠ none) ∧ (s.stc.pendingExit ≠ none → e ≠ none) := by
  induction os generalizing s with
  | nil => exact ⟨s.stc.pendingExit, rfl, fun _ => rfl, fun _ h => by simp at h, id⟩
  | cons o os ih =>
    by_cases hstop : Stops o.kind s ∧ stoppable s.stc.station = true
    · have hs' : stoppable (s.withFlt (recorded s.cfg.masks o s.flt)).stc.station = true := hstop.2
      have hone : raise o s = (s.withFlt (recorded s.cfg.masks o s.flt)).withStc
          { s.stc with pendingExit := some (s.stc.pendingExit.getD .toSilent) } := by
        rw [raise_stops hstop.1, stoppingReport_on (by exact ht), if_pos hs']
        rfl
      obtain ⟨e, he, -, -, hsome⟩ := ih (s := raise o s) (by rw [raise_lif]; exact ht)
      refine ⟨e, ?_, fun hcalm => absurd hstop.1 (hcalm o (by simp)), fun _ _ => hsome ?_, fun _ => hsome ?_⟩
      · rw [raiseAll_cons, he, hone]; rfl
      · rw [hone]; exact nofun
      · rw [hone]; exact nofun
    · have hone : raise o s = s.withFlt (recorded s.cfg.masks o s.flt) := by
        by_cases hs : Stops o.kind s
        · rw [raise_stops hs, stoppingReport]
          exact if_neg fun h => hstop ⟨hs, h⟩
        · exact raise_calm hs
      obtain ⟨e, he, hcalm, hstops, hsome⟩ := ih (s := raise o s) (by rw [raise_lif]; exact ht)
      rw [hone] at he hcalm hstops hsome
      refine ⟨e, ?_, fun h => hcalm fun x hx => h x (by simp [hx]), fun hs ⟨x, hx, hx'⟩ => ?_, hsome⟩
      · rw [raiseAll_cons, hone, he]; rfl
      · rcases List.mem_cons.mp hx with rfl | hx
        · exact absurd ⟨hx', hs⟩ hstop
        · exact hstops hs ⟨x, hx, hx'⟩

/-! ### The tasks of a phase end report -/

theorem reported_ageOut (which : Entry → Bool) (p : Phase) (c : Cycle) (s : State) :
    Reported ((s.rxu.table.filter which).map (agedOccurrence p c)) s (ageOut which p c s) :=
  (reported_withRxu s _).trans (reported_raiseAll _ _)

@[simp] theorem ageOut_rxu (which : Entry → Bool) (p : Phase) (c : Cycle) (s : State) :
    (ageOut which p c s).rxu = discardEntries which s.rxu := by simp [ageOut]

/-- The Receive Unit and the reports of a segment 0, once no entry of its key stands. -/
theorem reported_takeStart (f : Gather) (s0 : State) (p : Phase) (c : Cycle) (s : State) (index : indexOf f.bytes = 0)
    (fresh : ∀ e ∈ s.rxu.table, ¬ KeyOf f e) :
    let g := takenFrame f s0 p c
    let t := if g.last then takeSingle g s else takeFirst g s
    ∃ kinds, Handled f g.payload s.rxu t.rxu kinds ∧ Reported (kinds.map (frameFault f p c)) s t := by
  intro g t
  have hfull : ∀ u : State, Reported ([FaultKind.noSpace].map (frameFault f p c)) u (raise (frameOccurrence .noSpace g) u) :=
    fun u => reported_raise _ u
  cases hl : lastOf f.bytes
  · have ht : t = takeFirst g s := if_neg (by simp [g, takenFrame, hl])
    rw [ht, takeFirst]
    split
    · next hr => exact ⟨[], .first _ _ index hl fresh hr.1 hr.2 (insertEntry_perm _ _), reported_withRxu _ _⟩
    · next hr => exact ⟨_, by rw [raise_rxu]; exact .firstNoSpace _ index hl fresh hr, hfull s⟩
  · have ht : t = takeSingle g s := if_pos (by simp [g, takenFrame, hl])
    rw [ht, takeSingle]
    split
    · next hr =>
      exact ⟨[], .whole _ index hl fresh ((deliveryRoom_iff _).mp hr), (reported_withRxu _ _).trans (reported_driveDlv _)⟩
    · next hr =>
      exact ⟨_, by rw [raise_rxu]; exact .wholeNoSpace _ index hl fresh fun h => hr ((deliveryRoom_iff _).mpr h), hfull s⟩

/-- The Receive Unit and the reports of a continuation that agrees with its entry. -/
theorem reported_takeNext (f : Gather) (s0 : State) (p : Phase) (c : Cycle) (s : State) {e : Entry}
    (index : 1 ≤ indexOf f.bytes) (stands : e ∈ s.rxu.table) (key : KeyOf f e) (next : e.next = indexOf f.bytes)
    (number : e.number = numberOf f.bytes) :
    let g := takenFrame f s0 p c
    let t := if g.last then takeLast g e s else takeMiddle g e s
    ∃ kinds, Handled f g.payload s.rxu t.rxu kinds ∧ Reported (kinds.map (frameFault f p c)) s t := by
  intro g t
  have hdis : discardEntry g.sender g.cls s.rxu = withoutKey f s.rxu := discardEntry_eq f s.rxu
  have htable : (removeEntry g.sender g.cls s.rxu).table = (withoutKey f s.rxu).table := removeEntry_table f s.rxu
  have hfull : ∀ u : State, Reported ([FaultKind.noSpace].map (frameFault f p c)) s
      (raise (frameOccurrence .noSpace g) (s.withRxu u.rxu)) :=
    fun u => (reported_withRxu s _).trans (reported_raise _ _)
  cases hl : lastOf f.bytes
  · have ht : t = takeMiddle g e s := if_neg (by simp [g, takenFrame, hl])
    rw [ht, takeMiddle]
    split
    · next hr =>
      refine ⟨[], .continues _ e _ index stands key next number hl hr ?_, reported_withRxu _ _⟩
      rw [← htable]
      exact insertEntry_perm _ _
    · next hr =>
      refine ⟨_, ?_, hfull (s.withRxu _)⟩
      rw [raise_rxu, hdis]
      exact .continuesNoSpace _ e index stands key next number (by simp [hl]; omega)
  · have ht : t = takeLast g e s := if_pos (by simp [g, takenFrame, hl])
    rw [ht, takeLast]
    split
    · next hr =>
      refine ⟨[], ?_, (reported_withRxu _ _).trans (reported_driveDlv _)⟩
      have hdone := Handled.completes (payload := g.payload) s.rxu e index stands key next number hl
        ((deliveryRoom_iff _).mp hr)
      rw [← htable] at hdone
      exact hdone
    · next hr =>
      refine ⟨_, ?_, hfull (s.withRxu _)⟩
      rw [raise_rxu, hdis]
      refine .continuesNoSpace _ e index stands key next number ?_
      rw [if_pos hl]
      exact fun h => hr ((deliveryRoom_iff _).mpr h)

/-- Everything a taken frame can do: at the Receive Unit as R109 to R115 say, and its faults as reports in their order. -/
theorem reported_takeFrame (f : Gather) (s0 : State) (p : Phase) (c : Cycle) (s : State) :
    let g := takenFrame f s0 p c
    ∃ kinds, Handled f g.payload s.rxu (takeFrame g s).rxu kinds ∧
      Reported (kinds.map (frameFault f p c)) s (takeFrame g s) := by
  intro g
  have hdis : discardEntry g.sender g.cls s.rxu = withoutKey f s.rxu := discardEntry_eq f s.rxu
  have hkey : findEntry g.sender g.cls s.rxu = findEntry (senderOf f.bytes) (classOf f.bytes) s.rxu := rfl
  have hsequence : Reported ([FaultKind.sequence].map (frameFault f p c)) s
      (raise (frameOccurrence .sequence g) (s.withRxu (withoutKey f s.rxu))) :=
    (reported_withRxu s _).trans (reported_raise _ _)
  by_cases hi : indexOf f.bytes = 0
  · rw [takeFrame, if_pos (show g.index = 0 from hi), replaceEntry, hkey, hdis]
    cases he : findEntry (senderOf f.bytes) (classOf f.bytes) s.rxu with
    | none => exact reported_takeStart f s0 p c s hi (findEntry_none he)
    | some e =>
      obtain ⟨kinds, hhandled, hreported⟩ := reported_takeStart f s0 p c
        (raise (frameOccurrence .sequence g) (s.withRxu (withoutKey f s.rxu))) hi
        (by rw [raise_rxu]; exact withoutKey_fresh f s.rxu)
      rw [raise_rxu] at hhandled
      exact ⟨.sequence :: kinds, .replaces _ _ _ e hi (findEntry_some he).1 (findEntry_some he).2 hhandled,
        hsequence.trans hreported⟩
  · have hi' : 1 ≤ indexOf f.bytes := Nat.pos_of_ne_zero hi
    rw [takeFrame, if_neg (show ¬ g.index = 0 from hi), takeContinuation, hkey, hdis]
    cases he : findEntry (senderOf f.bytes) (classOf f.bytes) s.rxu with
    | none => exact ⟨[], .orphan _ hi' (findEntry_none he), Reported.refl s⟩
    | some e =>
      obtain ⟨hm, hk⟩ := findEntry_some he
      simp only
      split
      · next ha => exact reported_takeNext f s0 p c s hi' hm hk ha.1 ha.2
      · next ha =>
        refine ⟨[.sequence], ?_, hsequence⟩
        rw [raise_rxu]
        exact .contradicts _ e hi' hm hk (not_and_or.mp ha)

theorem reported_rxuBoundary (p : Phase) (c : Cycle) (s : State) :
    Reported (((raiseAges s.rxu).table.filter fun e => e.age == s.cfg.ageLimit).map (agedOccurrence p c)) s
      (rxuBoundary p c s) := by
  have h := ((reported_withRxu s (raiseAges (quietBoundary s.cfg.quietLimit s.rxu))).trans (reported_driveDlv _)).trans
    (reported_ageOut (fun e => e.age == s.cfg.ageLimit) p c _)
  have htable : (raiseAges (quietBoundary s.cfg.quietLimit s.rxu)).table = (raiseAges s.rxu).table := by
    simp [raiseAges]
  simp only [List.nil_append, driveDlv_rxu, State.withRxu_rxu, htable] at h
  exact h

/-- The occurrences that the notices of peer loss raise, address by address (R118, R139). -/
def lossOccurrences (p : Phase) (c : Cycle) : List Addr → Rxu → List Occurrence
  | [], _ => []
  | a :: as, x => (x.table.filter fun e => e.sender == a).map (agedOccurrence p c) ++
      lossOccurrences p c as (discardEntries (fun e => e.sender == a) x)

theorem reported_peerLosses (p : Phase) (c : Cycle) (as : List Addr) (s : State) :
    Reported (lossOccurrences p c as s.rxu) s (as.foldl (peerLoss p c) s) := by
  induction as generalizing s with
  | nil => exact Reported.refl s
  | cons a as ih =>
    have h := (reported_ageOut (fun e => e.sender == a) p c s).trans (ih _)
    rwa [ageOut_rxu] at h

theorem reported_pmnBoundary (whole : Bool) (p : Phase) (c : Cycle) (s : State) :
    Reported (lossOccurrences p c (lostPeers s.pmn (evaluateAll s.cfg whole s.pmn)) s.rxu) s (pmnBoundary whole p c s) :=
  (reported_withPmn s (evaluateAll s.cfg whole s.pmn)).trans
    (reported_peerLosses p c (lostPeers s.pmn (evaluateAll s.cfg whole s.pmn)) (s.withPmn (evaluateAll s.cfg whole s.pmn)))

/-- Every task reports, and changes beside the reports the Receive Unit, the Peer Monitor and DLV_REQ alone. -/
theorem reported_runTask {w : Work} (taken : ∀ g, w.taken = some g → ∃ f s0 p c, g = takenFrame f s0 p c)
    (whole : Bool) (p : Phase) (c : Cycle) (t : Task) (s : State) : ∃ os, Reported os s (runTask w whole p c t s) := by
  cases t with
  | fault => exact ⟨_, reported_raiseAll _ _⟩
  | frame =>
    cases hg : w.taken with
    | none => exact ⟨[], by simpa only [runTask, hg] using Reported.refl s⟩
    | some g =>
      obtain ⟨f, s0, p', c', rfl⟩ := taken g hg
      obtain ⟨kinds, -, h⟩ := reported_takeFrame f s0 p' c' s
      exact ⟨_, by simpa only [runTask, hg] using h⟩
  | aging => exact ⟨_, reported_rxuBoundary p c s⟩
  | presence => exact ⟨_, reported_pmnBoundary whole p c s⟩

theorem reported_creditHeard (w : Work) (s : State) : Reported [] s (creditHeard w s) := by
  unfold creditHeard
  split
  · exact reported_withPmn s _
  · exact Reported.refl s

end Sys2Proof.Machine
end

section
/-! SUPPORT. The state in which a command that ends a phase advances: what stands of the state before the command, and the work
that it hands on (R21, R29, R31, R34, R35, R38). -/

namespace Sys2Proof.Machine

variable {s : State}

/-! ### The order of the blocks and the free value it uses -/

/-- The count of free values after the order of a phase end has been taken. -/
def freeAfter (k : Work) (s : State) : Nat := if orderMatters k s then s.freeCount + 1 else s.freeCount

theorem useOrder_eq (k : Work) (s : State) : useOrder k s = s.withFreeCount (freeAfter k s) := by
  unfold useOrder freeAfter
  split_ifs <;> rfl

theorem phaseEnd_eq (k : Work) (s : State) :
    phaseEnd k s = phaseEndWith (orderOf k s) k (s.withFreeCount (freeAfter k s)) := by
  rw [phaseEnd, useOrder_eq]

/-! ### A clean frame before the advance -/

/-- The Peer Monitor after the notices of a clean frame, heard credit apart. -/
def notedPmn (bytes : List Byte) (e : Option Nat) (cfg : Items) (x : Pmn) : Pmn :=
  match e with
  | some n => measure cfg (senderOf bytes) n (noteMismatch (senderOf bytes) false x)
  | none => noteMismatch (senderOf bytes) false x

theorem notePeer_eq (bytes : List Byte) (e : Option Nat) (s : State) :
    notePeer bytes e s = s.withPmn (notedPmn bytes e s.cfg s.pmn) := by
  cases e <;> rfl

@[simp] theorem notedPmn_marks (bytes : List Byte) (e : Option Nat) (cfg : Items) (x : Pmn) :
    (notedPmn bytes e cfg x).marks = x.marks := by
  cases e <;> rfl

theorem notedPmn_presence (bytes : List Byte) (e : Option Nat) (cfg : Items) (x : Pmn) (a : Addr) :
    (notedPmn bytes e cfg x).peers[a].presence = x.peers[a].presence := by
  by_cases ha : a = senderOf bytes <;> cases e <;> simp [notedPmn, measure, noteMismatch, ha]

/-- While ALIGNED a clean frame ends HOLD, and sets p and c where they differ from its own (R38, R43). -/
def trackedCtr (bytes : List Byte) (s : State) : Ctr :=
  if realigns bytes s then { alignTo (phaseOf bytes) (cycleOf bytes) s.ctr with hold := false }
  else { s.ctr with hold := false }

theorem acquires_eq_false (h : s.ctr.aligned = true) : acquires s = false := by simp [acquires, h]

theorem trackClean_aligned (bytes : List Byte) (h : s.ctr.aligned = true) :
    trackClean bytes s = s.withCtr (trackedCtr bytes s) := by
  rw [trackClean, if_neg (by simp [acquires_eq_false h]), trackedCtr]
  split_ifs <;> rfl

/-- The state in which a clean frame of this state has acquired alignment (R34, R43, R56). -/
def acquiredState (bytes : List Byte) (s : State) : State :=
  ((s.withCtr { alignTo (phaseOf bytes) (cycleOf bytes) s.ctr with
      hold := false
      coldWait := if s.stc.station = .silent then s.ctr.coldWait else none
      coldAlignPending := if s.stc.station = .silent then s.ctr.coldAlignPending else false }).withStc
    (acquiredStc s.stc)).withLif
    { s.lif with echoFailures := if s.stc.station = .silent then s.lif.echoFailures else 0 }

theorem acquires_iff : acquires s = true ↔
    s.ctr.aligned = false ∧ (s.stc.station = .listen ∨ s.stc.station = .cold ∨ s.stc.station = .silent) := by
  cases hs : s.stc.station <;> simp [acquires, hs]

theorem trackClean_acquires (bytes : List Byte) (h : acquires s = true) : trackClean bytes s = acquiredState bytes s := by
  rw [trackClean, if_pos h]
  by_cases hs : s.stc.station = .silent
  · simp only [hs, if_true, acquiredState, acquiredStc]
    rfl
  · simp only [hs, if_false, acquiredState, acquiredStc, enterActive]
    rfl

/-- The state in which a clean frame of this state advances, before its order is taken. -/
def cleanState (f : Gather) (s v : State) : State := v.withPmn (notedPmn f.bytes (patternErrors f) s.cfg s.pmn)

/-- The order that the frame end of a clean frame takes. -/
def cleanOrder (f : Gather) (s v : State) : Config.FrameEndOrder :=
  orderOf (cleanWork f (patternErrors f) false s) (cleanState f s v)

/-- Whether the taken frame's p and c are those after the correction (R152; log 11). -/
def cleanCorrected (f : Gather) (s v : State) : Bool :=
  realigns f.bytes s && (endsCycle (cleanState f s v) || readsCorrected (cleanOrder f s v))

theorem cleanFrameEnd_eq {f : Gather} {v : State} (hv : trackClean f.bytes (dropFrame s) = v) :
    cleanFrameEnd f s = phaseEndWith (cleanOrder f s v) (cleanWork f (patternErrors f) (cleanCorrected f s v) s)
      ((cleanState f s v).withFreeCount (freeAfter (cleanWork f (patternErrors f) false s) (cleanState f s v))) := by
  have hcfg : v.cfg = s.cfg := by rw [← hv, trackClean_cfg]; rfl
  have hpmn : v.pmn = s.pmn := by rw [← hv, trackClean_pmn]; rfl
  rw [cleanFrameEnd, hv, notePeer_eq, useOrder_eq, hcfg, hpmn]
  rfl

theorem endFrame_clean {f : Gather} (h : EndsWith f .clean s) : endFrame s = cleanFrameEnd f s := by
  simp [endFrame, h.frame, h.begun, h.other, h.outcome, FrameOutcome.kind]

theorem takes_iff (f : Gather) (h : s.ctr.aligned = true) : takes f s = true ↔ Taken f s := by
  simp only [takes, acquires_eq_false h, Taken, Bool.and_eq_true, Bool.or_eq_true, beq_iff_eq, Bool.not_false, and_true,
    and_assoc]

theorem takes_eq_false_of_acquires (f : Gather) (h : acquires s = true) : takes f s = false := by simp [takes, h]

theorem realigns_iff (bytes : List Byte) (h : s.ctr.aligned = true) :
    realigns bytes s = true ↔ phaseOf bytes ≠ s.ctr.p ∨ cycleOf bytes ≠ s.ctr.c := by
  simp [realigns, h]

theorem realigns_eq_false (bytes : List Byte) (h : s.ctr.aligned = false) : realigns bytes s = false := by
  simp [realigns, h]

end Sys2Proof.Machine
end

section
/-! SUPPORT. Every way in which a phase ends, brought to one form: the state before the advance and the work handed on (R21, R29,
R31, R34, R35, R38). -/

namespace Sys2Proof.Machine

/-- The command runs as the end of phase `n` from `u`, with the work `k` and in the order `o` of the blocks; `u` is `s` with the
ending's alignment, Station Controller and notices made. The Transmit Scheduler and the Local Port have no part before the
advance. -/
structure Advances (o : Config.FrameEndOrder) (k : Work) (s : State) (i : Instr) (n : Phase) (w : Ending) (u : State) : Prop where
  runs : ∀ x y, exec i ((s.withTxs x).withLpt y) = .next (phaseEndWith o k ((u.withTxs x).withLpt y))
  ctr : u.ctr = { s.ctr with
    aligned := true, p := n, c := w.cycle, whole := w.whole, hold := w.hold
    coldWait := if w.stc.station = s.stc.station then s.ctr.coldWait else none
    coldAlignPending := if w.stc.station = s.stc.station then s.ctr.coldAlignPending else false }
  stc : u.stc = w.stc
  line : LineStands i w s u
  txs : u.txs = s.txs
  lpt : u.lpt = s.lpt
  flt : u.flt = s.flt
  cfg : u.cfg = s.cfg
  rstLow : u.rstLow = s.rstLow
  pending : u.pending = s.pending
  rxu : u.rxu = { s.rxu with segBuf := if i = .frameEnd then [] else s.rxu.segBuf }
  fru : u.fru = { s.fru with frame := if i = .frameEnd then none else s.fru.frame.filter Gather.begun }
  marks : u.pmn.marks = s.pmn.marks
  presence : ∀ a : Addr, u.pmn.peers[a].presence = s.pmn.peers[a].presence
  noted : ∀ f, i = .frameEnd → EndsWith f .clean s → u.pmn = notedPmn f.bytes (patternErrors f) s.cfg s.pmn
  free : n.val + 1 ≠ s.ctr.table.length → w.fault = none ∨ w.took = none → u.freeCount = s.freeCount
  errors : k.errors = w.errors
  fault : k.fault = w.fault
  heard : k.heard = w.heard.map fun a => (a, w.cycle)
  took : ∃ p c, k.taken = w.took.map (fun f => takenFrame f s p c) ∧
    ((p = n ∧ c = w.cycle ∧ (w.fault = none ∨ w.took = none ∨ n.val + 1 = s.ctr.table.length ∨ o.fault ≤ o.frame)) ∨
      (n.val + 1 ≠ s.ctr.table.length ∧ p = s.ctr.p ∧ c = s.ctr.c ∧ ¬ o.fault ≤ o.frame))

theorem Advances.exec_eq {o : Config.FrameEndOrder} {k : Work} {s : State} {i : Instr} {n : Phase} {w : Ending} {u : State}
    (h : Advances o k s i n w u) : exec i s = .next (phaseEndWith o k u) := by
  have hr := h.runs s.txs s.lpt
  have hu : (u.withTxs s.txs).withLpt s.lpt = u := by rw [← h.txs, ← h.lpt]; rfl
  rw [hu] at hr
  exact hr

/-! ### A phase end with no work -/

theorem ctr_eta_aligned {x : Ctr} (h : x.aligned = true) : x = { x with aligned := true } := by
  rw [← h]

/-- The state of a phase end with no work: the receiver may have moved, and a frame may leave the line. -/
def plainState (i : Instr) (l : Lif) (s : State) : State :=
  ((s.withLif l).withFru { s.fru with frame := if i = .frameEnd then none else s.fru.frame.filter Gather.begun }).withRxu
    { s.rxu with segBuf := if i = .frameEnd then [] else s.rxu.segBuf }

theorem advances_plain {s : State} {i : Instr} {l : Lif} (aligned : s.ctr.aligned = true)
    (line : LineStands i (Ending.plain s) s (s.withLif l)) (other : ∀ f, i = .frameEnd → ¬ EndsWith f .clean s)
    (runs : ∀ x y, exec i ((s.withTxs x).withLpt y) =
      .next (phaseEnd .nothing (((plainState i l s).withTxs x).withLpt y))) :
    ∃ o k u, Advances o k s i s.ctr.p (Ending.plain s) u := by
  let u := plainState i l s
  refine ⟨orderOf .nothing u, .nothing, u.withFreeCount (freeAfter .nothing u), ?_⟩
  exact
    { runs := fun x y => by rw [runs, phaseEnd_eq]; rfl
      ctr := by
        have he := ctr_eta_aligned aligned
        simp only [Ending.plain, if_true]
        exact he
      stc := rfl
      line := line
      txs := rfl
      lpt := rfl
      flt := rfl
      cfg := rfl
      rstLow := rfl
      pending := rfl
      rxu := rfl
      fru := rfl
      marks := rfl
      presence := fun _ => rfl
      noted := fun f hi hf => absurd hf (other f hi)
      free := fun hn _ => by
        have hends : endsCycle u = false := endsCycle_eq_false fun hl => hn hl.2
        simp [freeAfter, orderMatters, hends, Work.nothing]
        rfl
      errors := rfl
      fault := rfl
      heard := rfl
      took := ⟨s.ctr.p, s.ctr.c, rfl, .inl ⟨rfl, rfl, .inl rfl⟩⟩ }

theorem advances_skip {s : State} {ct : Nat} (aligned : s.ctr.aligned = true) (timer : s.ctr.skip = .running ct)
    (driver : s.lif.tx = none) (receiver : s.lif.receiver ≠ .character false) :
    ∃ o k u, Advances o k s .skipExpiry s.ctr.p (Ending.plain s) u :=
  advances_plain (l := s.lif) aligned (by simp [LineStands, Ending.plain]) (fun _ h => nomatch h) fun x y =>
    exec_skipExpiry_free (s := (s.withTxs x).withLpt y) aligned timer driver receiver

theorem advances_sample {s : State} (aligned : s.ctr.aligned = true) (timer : s.ctr.skip = .awaitingSample)
    (driver : s.lif.tx = none) (receiver : s.lif.receiver = .character false) (noFrame : s.lif.frameEndDue = false) :
    ∃ o k u, Advances o k s .falseStart s.ctr.p (Ending.plain s) u :=
  advances_plain (l := { s.lif with receiver := .idle }) aligned (by simp [LineStands, Ending.plain])
    (fun _ h => nomatch h) fun x y =>
    exec_falseStart_skip (s := (s.withTxs x).withLpt y) timer driver receiver noFrame

theorem not_clean_of_own {s : State} {f g : Gather} {outcome : FrameOutcome} (frame : s.fru.frame = some f)
    (isOwn : f.own = true) : ¬ EndsWith g outcome s := by
  intro h
  have hfg : g = f := Option.some.inj (h.frame.symm.trans frame)
  have := h.other
  simp [hfg, isOwn] at this

theorem advances_own {s : State} {f : Gather} (aligned : s.ctr.aligned = true) (frame : s.fru.frame = some f)
    (begun : f.begun = true) (isOwn : f.own = true) (free : LineFree s) (settled : s.ctr.coldAlignPending = false) :
    ∃ o k u, Advances o k s .frameEnd s.ctr.p (Ending.plain s) u :=
  advances_plain (l := s.lif) aligned (by simp [LineStands, Ending.plain]) (fun _ _ => not_clean_of_own frame isOwn)
    fun x y => by
      rw [exec_frameEnd_free (s := (s.withTxs x).withLpt y) free, endFrame_own (s := (s.withTxs x).withLpt y) frame begun isOwn,
        ownFrameEnd_aligned (s := dropFrame ((s.withTxs x).withLpt y)) settled aligned]
      rfl

/-- The COLD alignment of an own frame (R35). -/
theorem advances_cold {s : State} {f : Gather} {p : Phase} (frame : s.fru.frame = some f) (begun : f.begun = true)
    (isOwn : f.own = true) (free : LineFree s) (pending : s.ctr.coldAlignPending = true) (station : s.stc.station = .cold)
    (owns : (s.ctr.table[p.val]?.map PhaseEntry.owner) = some s.cfg.ownAddress)
    (lowest : ∀ q < p, (s.ctr.table[q.val]?.map PhaseEntry.owner) ≠ some s.cfg.ownAddress) :
    ∃ o k u, Advances o k s .frameEnd p ⟨0, false, false, 0, none, none, none, acquiredStc s.stc⟩ u := by
  let u := enterActive ((dropFrame s).withCtr (alignTo p 0 (dropFrame s).ctr))
  have hlow : lowestOwned (dropFrame s) = p := lowestOwned_eq (s := dropFrame s) owns lowest
  have hstc : acquiredStc s.stc = { s.stc with station := .active, coldAttempts := 0, stationCause := true } :=
    if_neg (by simp [station])
  have hstation : (acquiredStc s.stc).station ≠ s.stc.station := by rw [hstc, station]; exact nofun
  refine ⟨orderOf .nothing u, .nothing, u.withFreeCount (freeAfter .nothing u), ?_⟩
  exact
    { runs := fun x y => by
        rw [exec_frameEnd_free (s := (s.withTxs x).withLpt y) free, endFrame_own (s := (s.withTxs x).withLpt y) frame begun isOwn,
          ownFrameEnd_cold (s := dropFrame ((s.withTxs x).withLpt y)) pending, phaseEnd_eq]
        have : lowestOwned (dropFrame ((s.withTxs x).withLpt y)) = p := hlow
        rw [this]
        rfl
      ctr := by
        simp only [if_neg hstation]
        rfl
      stc := hstc.symm
      line := by
        rw [LineStands, if_neg hstation]
        rfl
      txs := rfl
      lpt := rfl
      flt := rfl
      cfg := rfl
      rstLow := rfl
      pending := rfl
      rxu := rfl
      fru := rfl
      marks := rfl
      presence := fun _ => rfl
      noted := fun _ _ hf => absurd hf (not_clean_of_own frame isOwn)
      free := fun hn _ => by
        have hends : endsCycle u = false := endsCycle_eq_false fun hl => hn hl.2
        simp [freeAfter, orderMatters, hends, Work.nothing]
        rfl
      errors := rfl
      fault := rfl
      heard := rfl
      took := ⟨p, 0, rfl, .inl ⟨rfl, rfl, .inl rfl⟩⟩ }

/-! ### The frame end of a frame with a fault -/

/-- The Peer Monitor after the notices of a frame with a fault. -/
def faultPmn (bytes : List Byte) (outcome : FrameOutcome) (x : Pmn) : Pmn :=
  match outcome with
  | .digest => noteMismatch (senderOf bytes) true x
  | .foreign => noteMismatch (senderOf bytes) false x
  | _ => x

theorem noteFault_eq (bytes : List Byte) (outcome : FrameOutcome) (s : State) :
    noteFault bytes outcome s = s.withPmn (faultPmn bytes outcome s.pmn) := by
  cases outcome <;> rfl

theorem faultPmn_presence (bytes : List Byte) (outcome : FrameOutcome) (x : Pmn) (a : Addr) :
    (faultPmn bytes outcome x).peers[a].presence = x.peers[a].presence := by
  by_cases ha : a = senderOf bytes <;> cases outcome <;> simp [faultPmn, noteMismatch, ha]

theorem faultPmn_marks (bytes : List Byte) (outcome : FrameOutcome) (x : Pmn) :
    (faultPmn bytes outcome x).marks = x.marks := by
  cases outcome <;> rfl

/-- No report, no phase start and no notice leads into COLD. -/
theorem notCold_standsOverTasks : StandsOverTasks fun s => s.stc.station ≠ .cold where
  report o s h := by
    rcases raise_stc s o with e | ⟨-, -, -, e⟩ | ⟨-, -, -, e⟩ <;> rw [e]
    · exact h
    · exact h
    · exact nofun
  receive _ _ h := h
  peers _ _ h := h
  line _ h := h

theorem phaseEndWith_notCold (o : Config.FrameEndOrder) (k : Work) {s : State} (h : s.stc.station ≠ .cold) :
    (phaseEndWith o k s).stc.station ≠ .cold :=
  phaseEndWith_induct (P := fun u => u.stc.station ≠ .cold) (fun _ _ hu => hu)
    (fun whole p c t _ hu => notCold_standsOverTasks.runTask k whole p c t hu)
    (fun u hu => by rw [phaseStart_stc]; exact hu) o (by simpa using h)

theorem advances_fault {s : State} {f : Gather} {outcome : FrameOutcome} {kind : FaultKind} (ends : EndsWith f outcome s)
    (isFault : outcome.kind = some kind) (aligned : s.ctr.aligned = true) (station : s.stc.station ≠ .cold) :
    ∃ o k u, Advances o k s .frameEnd s.ctr.p
      ⟨s.ctr.c, s.ctr.whole, s.ctr.hold, counted s.cfg.selection outcome (patternErrors f), none,
        some ⟨kind, faultSender f, none, s.ctr.p, s.ctr.c, f.bytes.take 8⟩, none, s.stc⟩ u := by
  let k := faultWork f outcome kind s
  let u := (dropFrame s).withPmn (faultPmn f.bytes outcome s.pmn)
  refine ⟨orderOf k u, k, u.withFreeCount (freeAfter k u), ?_⟩
  exact
    { runs := fun x y => by
        have hs : (phaseEndWith (orderOf k u) k (((u.withFreeCount (freeAfter k u)).withTxs x).withLpt y)).stc.station ≠
          .cold := phaseEndWith_notCold _ _ station
        have he : endFrame ((s.withTxs x).withLpt y) = faultFrameEnd f outcome kind ((s.withTxs x).withLpt y) :=
          endFrame_fault (s := (s.withTxs x).withLpt y)
            ⟨ends.frame, ends.begun, ends.other, ends.free, ends.outcome⟩ isFault
        have hp : phaseEnd (faultWork f outcome kind ((s.withTxs x).withLpt y))
            (noteFault f.bytes outcome (dropFrame ((s.withTxs x).withLpt y))) =
            phaseEndWith (orderOf k u) k (((u.withFreeCount (freeAfter k u)).withTxs x).withLpt y) := by
          rw [noteFault_eq, phaseEnd_eq]
          rfl
        rw [exec_frameEnd_free (s := (s.withTxs x).withLpt y) ends.free, he, faultFrameEnd]
        simp only [hp, if_neg hs]
      ctr := by
        have he := ctr_eta_aligned aligned
        simp only [if_true]
        exact he
      stc := rfl
      line := by simp only [LineStands, if_true]; rfl
      txs := rfl
      lpt := rfl
      flt := rfl
      cfg := rfl
      rstLow := rfl
      pending := rfl
      rxu := rfl
      fru := rfl
      marks := faultPmn_marks _ _ _
      presence := faultPmn_presence _ _ _
      noted := fun g _ hg => by
        have hfg : g = f := Option.some.inj (hg.frame.symm.trans ends.frame)
        have := hg.outcome
        rw [hfg, ends.outcome] at this
        rw [this] at isFault
        cases isFault
      free := fun hn _ => by
        have hends : endsCycle u = false := endsCycle_eq_false fun hl => hn hl.2
        have : orderMatters k u = false := by simp [orderMatters, hends, k, faultWork]
        show freeAfter k u = _
        rw [freeAfter, this]
        rfl
      errors := errorsOf_eq_counted _ _ _
      fault := rfl
      heard := rfl
      took := ⟨s.ctr.p, s.ctr.c, rfl, .inl ⟨rfl, rfl, .inr (.inl rfl)⟩⟩ }

/-! ### The frame end of a clean frame -/

/-- The work of a clean frame, with the p and c of the taken frame as they are read. -/
theorem cleanWork_taken (f : Gather) (e : Option Nat) (corrected : Bool) (s : State) :
    (cleanWork f e corrected s).taken = (if takes f s then some f else none).map fun g =>
      takenFrame g s (if corrected then phaseOf f.bytes else s.ctr.p) (if corrected then cycleOf f.bytes else s.ctr.c) := by
  cases corrected <;> cases h : takes f s <;> simp [cleanWork, h]

theorem advances_clean {s : State} {f : Gather} {c : Ctr} {z : Stc} {l : Lif} {w : Ending} (ends : EndsWith f .clean s)
    (tracked : ∀ x y, trackClean f.bytes (dropFrame ((s.withTxs x).withLpt y)) =
      (((((dropFrame s).withCtr c).withStc z).withLif l).withTxs x).withLpt y)
    (ctr : c = { s.ctr with
      aligned := true, p := phaseOf f.bytes, c := cycleOf f.bytes, whole := w.whole, hold := w.hold
      coldWait := if w.stc.station = s.stc.station then s.ctr.coldWait else none
      coldAlignPending := if w.stc.station = s.stc.station then s.ctr.coldAlignPending else false })
    (stc : z = w.stc) (line : LineStands .frameEnd w s (s.withLif l)) (cycle : w.cycle = cycleOf f.bytes)
    (errors : w.errors = counted s.cfg.selection .clean (patternErrors f)) (heard : w.heard = some (senderOf f.bytes))
    (fault : w.fault = if realigns f.bytes s then some (slipOccurrence f.bytes s) else none)
    (took : w.took = if takes f s then some f else none)
    (stays : realigns f.bytes s = false → w.took = none ∨ (s.ctr.p = phaseOf f.bytes ∧ s.ctr.c = cycleOf f.bytes)) :
    ∃ o k u, Advances o k s .frameEnd (phaseOf f.bytes) w u := by
  let v := (((dropFrame s).withCtr c).withStc z).withLif l
  let u := cleanState f s v
  have hends : endsCycle u = true ↔ (phaseOf f.bytes).val + 1 = s.ctr.table.length := by
    rw [endsCycle_eq_true_iff, LastPhase]
    show c.aligned = true ∧ c.p.val + 1 = c.table.length ↔ _
    simp [ctr]
  refine ⟨cleanOrder f s v, cleanWork f (patternErrors f) (cleanCorrected f s v) s,
    u.withFreeCount (freeAfter (cleanWork f (patternErrors f) false s) u), ?_⟩
  exact
    { runs := fun x y => by
        have he : EndsWith f .clean ((s.withTxs x).withLpt y) :=
          ⟨ends.frame, ends.begun, ends.other, ends.free, ends.outcome⟩
        rw [exec_frameEnd_free he.free, endFrame_clean he, cleanFrameEnd_eq (tracked x y)]
        rfl
      ctr := by rw [cycle]; exact ctr
      stc := stc
      line := line
      txs := rfl
      lpt := rfl
      flt := rfl
      cfg := rfl
      rstLow := rfl
      pending := rfl
      rxu := rfl
      fru := rfl
      marks := notedPmn_marks _ _ _ _
      presence := notedPmn_presence _ _ _ _
      noted := fun g _ hg => by
        have hfg : g = f := Option.some.inj (hg.frame.symm.trans ends.frame)
        rw [hfg]
        rfl
      free := fun hn hnone => by
        have hfalse : endsCycle u = false := by rw [← Bool.not_eq_true, hends]; exact hn
        have hwork : ((cleanWork f (patternErrors f) false s).fault.isSome &&
            (cleanWork f (patternErrors f) false s).taken.isSome) = false := by
          have hf : (cleanWork f (patternErrors f) false s).fault = w.fault := fault.symm
          have ht : (cleanWork f (patternErrors f) false s).taken = none ↔ w.took = none := by
            rw [cleanWork_taken, ← took, Option.map_eq_none_iff]
          rcases hnone with h | h
          · rw [hf, h]; rfl
          · rw [ht.mpr h]; simp
        show freeAfter _ u = _
        rw [freeAfter, orderMatters, hfalse, hwork]
        rfl
      errors := (errorsOf_eq_counted _ _ _).trans errors.symm
      fault := fault.symm
      heard := by rw [heard, cycle]; rfl
      took := by
        by_cases hnone : w.took = none
        · exact ⟨phaseOf f.bytes, w.cycle, by rw [cleanWork_taken, ← took, hnone]; rfl, .inl ⟨rfl, rfl, .inr (.inl hnone)⟩⟩
        refine ⟨_, _, by rw [took]; exact cleanWork_taken _ _ _ _, ?_⟩
        rw [cycle]
        by_cases hr : realigns f.bytes s = true
        · by_cases hb : endsCycle u = true
          · have hc : cleanCorrected f s v = true := by simp only [cleanCorrected, hr, hb, u, Bool.true_or, Bool.and_true]
            exact .inl ⟨if_pos hc, if_pos hc, .inr (.inr (.inl (hends.mp hb)))⟩
          · by_cases ho : (cleanOrder f s v).fault ≤ (cleanOrder f s v).frame
            · have hc : cleanCorrected f s v = true := by simp [cleanCorrected, hr, readsCorrected, ho]
              exact .inl ⟨if_pos hc, if_pos hc, .inr (.inr (.inr ho))⟩
            · have hc : ¬ cleanCorrected f s v = true := by
                simpa [cleanCorrected, hr, readsCorrected, ho] using hb
              exact .inr ⟨fun hn => hb (hends.mpr hn), if_neg hc, if_neg hc, ho⟩
        · have hc : ¬ cleanCorrected f s v = true := by simp [cleanCorrected, hr]
          obtain ⟨hp, hc'⟩ := (stays (Bool.eq_false_iff.mpr hr)).resolve_left hnone
          exact .inl ⟨(if_neg hc).trans hp, (if_neg hc).trans hc', .inl (by rw [fault, if_neg hr])⟩ }

theorem ite_takes (f : Gather) {s : State} (h : s.ctr.aligned = true) :
    (if Taken f s then some f else none) = if takes f s then some f else none := by
  simp only [takes_iff f h]

theorem advances_inStep {s : State} {f : Gather} (ends : EndsWith f .clean s) (aligned : s.ctr.aligned = true)
    (phase : phaseOf f.bytes = s.ctr.p) (cycle : cycleOf f.bytes = s.ctr.c) :
    ∃ o k u, Advances o k s .frameEnd s.ctr.p
      ⟨s.ctr.c, s.ctr.whole, false, counted s.cfg.selection .clean (patternErrors f), some (senderOf f.bytes), none,
        if Taken f s then some f else none, s.stc⟩ u := by
  have hr : ¬ realigns f.bytes s = true := by simp [realigns, phase, cycle]
  rw [← phase]
  refine advances_clean (c := { s.ctr with hold := false }) (z := s.stc) (l := s.lif) ends (fun x y => ?_) ?_ rfl ?_ cycle.symm
    rfl rfl (if_neg hr).symm (ite_takes f aligned) fun _ => .inr ⟨phase.symm, cycle.symm⟩
  · have hr' : ¬ realigns f.bytes (dropFrame ((s.withTxs x).withLpt y)) = true := hr
    rw [trackClean_aligned (s := dropFrame ((s.withTxs x).withLpt y)) _ aligned, trackedCtr, if_neg hr']
    rfl
  · simp only [if_true, phase, cycle]
    rw [← aligned]
  · simp only [LineStands, if_true]
    rfl

theorem advances_realigned {s : State} {f : Gather} (ends : EndsWith f .clean s) (aligned : s.ctr.aligned = true)
    (differs : phaseOf f.bytes ≠ s.ctr.p ∨ cycleOf f.bytes ≠ s.ctr.c) :
    ∃ o k u, Advances o k s .frameEnd (phaseOf f.bytes)
      ⟨cycleOf f.bytes, false, false, counted s.cfg.selection .clean (patternErrors f), some (senderOf f.bytes),
        some ⟨.slip, some (senderOf f.bytes), none, s.ctr.p, s.ctr.c, f.bytes.take 8⟩,
        if Taken f s then some f else none, s.stc⟩ u := by
  have hr : realigns f.bytes s = true := (realigns_iff _ aligned).mpr differs
  refine advances_clean (c := { alignTo (phaseOf f.bytes) (cycleOf f.bytes) s.ctr with hold := false }) (z := s.stc) (l := s.lif)
    ends (fun x y => ?_) ?_ rfl ?_ rfl rfl rfl (if_pos hr).symm (ite_takes f aligned) fun hn => by simp [hr] at hn
  · have hr' : realigns f.bytes (dropFrame ((s.withTxs x).withLpt y)) = true := hr
    rw [trackClean_aligned (s := dropFrame ((s.withTxs x).withLpt y)) _ aligned, trackedCtr, if_pos hr']
    rfl
  · simp only [if_true]
    rfl
  · simp only [LineStands, if_true]
    rfl

theorem acquiredStc_station_iff {x : Stc} (h : x.station = .listen ∨ x.station = .cold ∨ x.station = .silent) :
    (acquiredStc x).station = x.station ↔ x.station = .silent := by
  unfold acquiredStc
  rcases h with h | h | h <;> simp [h]

theorem advances_acquired {s : State} {f : Gather} (ends : EndsWith f .clean s) (unaligned : s.ctr.aligned = false)
    (station : s.stc.station = .listen ∨ s.stc.station = .cold ∨ s.stc.station = .silent) :
    ∃ o k u, Advances o k s .frameEnd (phaseOf f.bytes)
      ⟨cycleOf f.bytes, false, false, counted s.cfg.selection .clean (patternErrors f), some (senderOf f.bytes), none,
        none, acquiredStc s.stc⟩ u := by
  have ha : acquires s = true := acquires_iff.mpr ⟨unaligned, station⟩
  have hr : ¬ realigns f.bytes s = true := by simp [realigns, unaligned]
  refine advances_clean (c := (acquiredState f.bytes s).ctr) (z := acquiredStc s.stc) (l := (acquiredState f.bytes s).lif)
    ends (fun x y => ?_) ?_ rfl ?_ rfl rfl rfl (if_neg hr).symm ?_ fun _ => .inl rfl
  · rw [trackClean_acquires _ (show acquires (dropFrame ((s.withTxs x).withLpt y)) = true from ha)]
    rfl
  · simp only [acquiredStc_station_iff station]
    rfl
  · simp only [LineStands, acquiredStc_station_iff station]
    rfl
  · simp [takes_eq_false_of_acquires f ha]

/-- Every phase end advances from such a state. -/
theorem PhaseEnd.advances {s : State} {i : Instr} {n : Phase} {w : Ending} (h : PhaseEnd s i n w) :
    ∃ o k u, Advances o k s i n w u := by
  cases h with
  | skip ct aligned timer driver receiver => exact advances_skip aligned timer driver receiver
  | sample aligned timer driver receiver noFrame => exact advances_sample aligned timer driver receiver noFrame
  | own f aligned frame begun isOwn free settled => exact advances_own aligned frame begun isOwn free settled
  | cold f p frame begun isOwn free pending station owns lowest =>
    exact advances_cold frame begun isOwn free pending station owns lowest
  | fault f outcome kind ends isFault aligned station => exact advances_fault ends isFault aligned station
  | inStep f ends aligned phase cycle => exact advances_inStep ends aligned phase cycle
  | realigned f ends aligned differs => exact advances_realigned ends aligned differs
  | acquired f ends unaligned station => exact advances_acquired ends unaligned station

/-! ### What every phase end starts from -/

theorem PhaseEnd.off {s : State} {i : Instr} {n : Phase} {w : Ending} (h : PhaseEnd s i n w) : s.lif.tx = none := by
  cases h with
  | skip ct aligned timer driver receiver => exact driver
  | sample aligned timer driver receiver noFrame => exact driver
  | own f aligned frame begun isOwn free settled => exact free.1
  | cold f p frame begun isOwn free pending station owns lowest => exact free.1
  | fault f outcome kind ends isFault aligned station => exact ends.free.1
  | inStep f ends aligned phase cycle => exact ends.free.1
  | realigned f ends aligned differs => exact ends.free.1
  | acquired f ends unaligned station => exact ends.free.1

/-- No alignment leads out of CONFIG. -/
theorem PhaseEnd.station {s : State} {i : Instr} {n : Phase} {w : Ending} (h : PhaseEnd s i n w)
    (hs : s.stc.station ≠ .config) : w.stc.station ≠ .config := by
  have hacquired : (acquiredStc s.stc).station ≠ .config := by
    unfold acquiredStc
    split_ifs
    · exact hs
    · exact nofun
  cases h with
  | cold => exact hacquired
  | acquired => exact hacquired
  | skip | sample | own | fault | inStep | realigned => exact hs

/-- A frame is taken at its frame end, in ACTIVE or SILENT, and is for the station (R106). -/
theorem PhaseEnd.taken {s : State} {i : Instr} {n : Phase} {w : Ending} {f : Gather} (h : PhaseEnd s i n w)
    (hw : w.took = some f) : i = .frameEnd ∧ Taken f s ∧ w.stc = s.stc ∧ EndsWith f .clean s := by
  cases h with
  | cold | acquired | skip | sample | own | fault => cases hw
  | inStep g ends | realigned g ends =>
    by_cases ht : Taken g s
    · obtain rfl : g = f := Option.some.inj ((if_pos ht).symm.trans hw)
      exact ⟨rfl, ht, rfl, ends⟩
    · simp [ht] at hw

end Sys2Proof.Machine
end

section
/-! SUPPORT. A phase end inside a cycle: the reports of its frame in their order, the phase start, and what they leave (R28, R31,
R58, R102, R149). -/

namespace Sys2Proof.Machine

/-! ### The taken frame and the heard credit -/

/-- What the taken frame of a phase end, if there is one, does at the Receive Unit, with the occurrences it raises in their
order. -/
def FrameTaken (took : Option Gather) (s : State) (p : Phase) (c : Cycle) (x y : Rxu) (os : List Occurrence) : Prop :=
  match took with
  | none => y = x ∧ os = []
  | some f => ∃ kinds, Handled f (s.rxu.segBuf.take (lengthOf f.bytes)) x y kinds ∧ os = kinds.map (frameFault f p c)

theorem reported_frame {k : Work} {took : Option Gather} {s0 : State} {p : Phase} {c : Cycle}
    (hk : k.taken = took.map fun f => takenFrame f s0 p c) (whole : Bool) (p' : Phase) (c' : Cycle) (s : State) :
    ∃ os, FrameTaken took s0 p c s.rxu (runTask k whole p' c' .frame s).rxu os ∧
      Reported os s (runTask k whole p' c' .frame s) := by
  cases took with
  | none =>
    have he : runTask k whole p' c' .frame s = s := by simp only [runTask, hk, Option.map_none]
    rw [he]
    exact ⟨[], ⟨rfl, rfl⟩, Reported.refl s⟩
  | some f =>
    have he : runTask k whole p' c' .frame s = takeFrame (takenFrame f s0 p c) s := by
      simp only [runTask, hk, Option.map_some]
    rw [he]
    obtain ⟨kinds, hhandled, hreported⟩ := reported_takeFrame f s0 p c s
    exact ⟨_, ⟨kinds, hhandled, rfl⟩, hreported⟩

/-- The Peer Monitor after the heard credit of a phase end. -/
def creditedPmn (k : Work) (x : Pmn) : Pmn :=
  match k.heard with
  | some (a, cycle) => credit a cycle x
  | none => x

theorem creditHeard_eq (k : Work) (s : State) : creditHeard k s = s.withPmn (creditedPmn k s.pmn) := by
  unfold creditHeard creditedPmn
  cases k.heard <;> rfl

/-! ### The phase end inside a cycle -/

theorem tasksBefore_inside (o : Config.FrameEndOrder) :
    tasksBefore o false = if o.fault ≤ o.frame then [.fault, .frame] else [.frame, .fault] := rfl

/-- The reports of a phase end inside a cycle, in the order taken. -/
def reportsInside (o : Config.FrameEndOrder) (k : Work) (faults : List Occurrence) : List Occurrence :=
  if o.fault ≤ o.frame then k.fault.toList ++ faults else faults ++ k.fault.toList

/-- The frame's own fault and the taken frame, in either order. -/
theorem reported_tasks_inside (o : Config.FrameEndOrder) {k : Work} {took : Option Gather} {s0 : State} {p : Phase} {c : Cycle}
    (hk : k.taken = took.map fun f => takenFrame f s0 p c) (whole : Bool) (p' : Phase) (c' : Cycle) (s : State) :
    ∃ faults, FrameTaken took s0 p c s.rxu (runTasks k whole p' c' (tasksBefore o false) s).rxu faults ∧
      Reported (reportsInside o k faults) s (runTasks k whole p' c' (tasksBefore o false) s) ∧
      (runTasks k whole p' c' (tasksBefore o false) s).pmn = s.pmn ∧
      (took = none → (runTasks k whole p' c' (tasksBefore o false) s).lpt = s.lpt) := by
  have hpmn : ∀ u, (runTask k whole p' c' .frame u).pmn = u.pmn := by
    intro u; simp only [runTask]; split <;> simp
  have hlpt : took = none → ∀ u, (runTask k whole p' c' .frame u).lpt = u.lpt := by
    rintro rfl u; simp only [runTask, hk, Option.map_none]
  by_cases ho : o.fault ≤ o.frame
  · obtain ⟨faults, htaken, hreported⟩ := reported_frame hk whole p' c' (raiseAll k.fault.toList s)
    have hrun : runTasks k whole p' c' (tasksBefore o false) s =
        runTask k whole p' c' .frame (raiseAll k.fault.toList s) := by rw [tasksBefore_inside, if_pos ho]; rfl
    rw [raiseAll_rxu] at htaken
    have horder : reportsInside o k faults = k.fault.toList ++ faults := if_pos ho
    rw [hrun]
    refine ⟨faults, htaken, ?_, ?_, fun hn => ?_⟩
    · rw [horder]; exact (reported_raiseAll _ s).trans hreported
    · rw [hpmn, raiseAll_pmn]
    · rw [hlpt hn, raiseAll_lpt]
  · obtain ⟨faults, htaken, hreported⟩ := reported_frame hk whole p' c' s
    have hrun : runTasks k whole p' c' (tasksBefore o false) s =
        raiseAll k.fault.toList (runTask k whole p' c' .frame s) := by rw [tasksBefore_inside, if_neg ho]; rfl
    have horder : reportsInside o k faults = faults ++ k.fault.toList := if_neg ho
    rw [hrun]
    refine ⟨faults, ?_, ?_, ?_, fun hn => ?_⟩
    · rw [raiseAll_rxu]; exact htaken
    · rw [horder]; exact hreported.trans (reported_raiseAll _ _)
    · rw [raiseAll_pmn, hpmn]
    · rw [raiseAll_lpt, hlpt hn]

/-- The state in which the frame of a phase end inside a cycle reports: p advanced, the line errors counted (R31, R157). -/
def advancedInside (errors : Nat) (u : State) : State :=
  (u.withCtr { u.ctr with p := phaseAfter u.ctr.p }).withFlt (countErrors errors u.flt)

/-- A phase end inside a cycle: the reports, then the phase start, with the heard credit before or after. -/
theorem phaseEndWith_inside (o : Config.FrameEndOrder) {k : Work} {u : State} {took : Option Gather} {s0 : State} {p : Phase}
    {c : Cycle} (hm : MidCycle u) (hk : k.taken = took.map fun f => takenFrame f s0 p c) :
    ∃ faults v, FrameTaken took s0 p c u.rxu v.rxu faults ∧
      Reported (reportsInside o k faults) (advancedInside k.errors u) v ∧ (took = none → v.lpt = u.lpt) ∧
      phaseEndWith o k u = (phaseStart v).withPmn (creditedPmn k u.pmn) := by
  have hbegin : countAtEnd o false k.errors (u.withCtr (advanced u)) = advancedInside k.errors u := by
    rw [advanced_inside hm.not_endsCycle, if_pos hm.1]
    rfl
  by_cases hc : o.creditFirst = true
  · obtain ⟨faults, htaken, hreported, hpmn, hlpt⟩ := reported_tasks_inside o hk u.ctr.whole (nextPhase u) (nextCycle u)
      (creditHeard k (advancedInside k.errors u))
    refine ⟨faults, _, ?_, (reported_creditHeard k _).trans hreported, fun hn => ?_, ?_⟩
    · rw [creditHeard_eq] at htaken ⊢
      exact htaken
    · rw [hlpt hn, creditHeard_eq]
      rfl
    · have he : phaseEndWith o k u = phaseStart (runTasks k u.ctr.whole (nextPhase u) (nextCycle u) (tasksBefore o false)
          (creditHeard k (advancedInside k.errors u))) := by
        simp only [phaseEndWith, hm.not_endsCycle, hbegin, hc, hm.1, if_true, Bool.false_and, Bool.false_eq_true, if_false]
      have hfinal : creditedPmn k u.pmn = (phaseStart (runTasks k u.ctr.whole (nextPhase u) (nextCycle u)
          (tasksBefore o false) (creditHeard k (advancedInside k.errors u)))).pmn := by
        rw [phaseStart_pmn, hpmn, creditHeard_eq]
        rfl
      rw [he, hfinal]
      rfl
  · obtain ⟨faults, htaken, hreported, hpmn, hlpt⟩ := reported_tasks_inside o hk u.ctr.whole (nextPhase u) (nextCycle u)
      (advancedInside k.errors u)
    refine ⟨faults, _, htaken, hreported, hlpt, ?_⟩
    simp only [phaseEndWith, hm.not_endsCycle, hbegin, hc, hm.1, if_true, Bool.false_and, Bool.false_eq_true, if_false,
      creditHeard_eq, phaseStart_pmn, hpmn]
    rfl

/-! ### Where the reports leave the station -/

/-- The driver is OFF: a run of reports stops a station in LISTEN, COLD or ACTIVE, or it leaves everything beside the Receive
Unit, the Peer Monitor, the Fault Unit and DLV_REQ as it is (R58, R102). -/
theorem Reported.station {os : List Occurrence} {s t : State} (h : Reported os s t) (off : s.lif.tx = none) :
    (stoppable s.stc.station = true ∧ (∃ o ∈ os, Stops o.kind s) ∧ t.stc = (enterSilent s).stc ∧
        t.txs = returnContexts s.txs ∧ t.ctr = (enterSilent s).ctr) ∨
      ((stoppable s.stc.station = true → ∀ o ∈ os, ¬ Stops o.kind s) ∧ t.stc = s.stc ∧ t.txs = s.txs ∧ t.ctr = s.ctr) := by
  by_cases hs : stoppable s.stc.station = true
  · by_cases hstop : ∃ o ∈ os, Stops o.kind s
    · left
      refine ⟨hs, hstop, ?_⟩
      rw [h.stc, h.txs, h.ctr, raiseAll_stops off hs hstop]
      exact ⟨rfl, rfl, rfl⟩
    · right
      have hcalm : ∀ o ∈ os, ¬ Stops o.kind s := fun o ho hk => hstop ⟨o, ho, hk⟩
      rw [h.stc, h.txs, h.ctr, raiseAll_calm hcalm]
      exact ⟨fun _ => hcalm, rfl, rfl, rfl⟩
  · right
    rw [h.stc, h.txs, h.ctr, raiseAll_unstoppable os (Bool.not_eq_true _ ▸ hs)]
    exact ⟨fun hs' => absurd hs' hs, rfl, rfl, rfl⟩

theorem returnContexts_eq (x : Txs) : returnContexts x = contextsReturned x := rfl

/-- The phase that begins is not offered: the Cycle Tracker's skip timer apart, nothing changes (R28). -/
theorem phaseStart_of_notOffered {q : Phase} {s v : State} {station : Station} (hq : v.ctr.p = q)
    (hs : v.stc.station = station) (htable : v.ctr.table = s.ctr.table) (hcfg : v.cfg = s.cfg) (h : NotOffered q station s) :
    phaseStart v = v.withCtr { v.ctr with skip := .running 2 } := by
  refine phaseStart_of_not_offered ?_
  rw [hq, hs, htable, hcfg]
  exact h.imp id .inl

/-! ### Phase ends inside a cycle, on every way in which a phase ends -/

/-- From `s` to `t` phase `n` ended inside a cycle with this ending; `faults` are the taken frame's, with p and c, and `os` are all
occurrences reported, in their order. -/
structure EndedInside (s : State) (i : Instr) (n : Phase) (w : Ending) (p : Phase) (c : Cycle) (faults os : List Occurrence)
    (t : State) : Prop where
  ctr : t.ctr = { s.ctr with
    aligned := true, p := phaseAfter n, c := w.cycle, whole := w.whole, skip := .running 2, hold := t.ctr.hold
    coldWait := t.ctr.coldWait, coldAlignPending := t.ctr.coldAlignPending }
  hold : w.hold = false → t.ctr.hold = false
  flt : t.flt = recordedAll s.cfg.masks os (countErrors w.errors s.flt)
  rxu : FrameTaken w.took s p c { s.rxu with segBuf := if i = .frameEnd then [] else s.rxu.segBuf } t.rxu faults
  pmn : ∀ f a, i = .frameEnd → EndsWith f .clean s → w.heard = some a →
    t.pmn = credit a w.cycle (notedPmn f.bytes (patternErrors f) s.cfg s.pmn)
  stopped : stoppable w.stc.station = true → (∃ o ∈ os, Stops o.kind s) →
    t.stc = { w.stc with station := .silent, stationCause := true, pendingExit := t.stc.pendingExit } ∧
      t.txs = contextsReturned s.txs ∧ LineStands i w s t
  stands : (stoppable w.stc.station = true → ∀ o ∈ os, ¬ Stops o.kind s) →
    t.stc = w.stc ∧
      (t.ctr.hold = w.hold ∧ t.ctr.coldWait = (if w.stc.station = s.stc.station then s.ctr.coldWait else none) ∧
        t.ctr.coldAlignPending = if w.stc.station = s.stc.station then s.ctr.coldAlignPending else false) ∧
      (NotOffered (phaseAfter n) w.stc.station s →
        LineStands i w s t ∧ t.txs = s.txs ∧
          t.fru = { s.fru with frame := if i = .frameEnd then none else s.fru.frame.filter Gather.begun })
  echo : t.lif.echoFailures = if w.stc.station = s.stc.station then s.lif.echoFailures else 0
  rest : t.cfg = s.cfg ∧ t.rstLow = s.rstLow ∧ t.pending = s.pending
  free : w.fault = none ∨ w.took = none → t.freeCount = s.freeCount
  lpt : w.took = none → NotOffered (phaseAfter n) w.stc.station s → t.lpt = s.lpt

theorem PhaseEnd.inside {s : State} {i : Instr} {n : Phase} {w : Ending} (h : PhaseEnd s i n w)
    (hn : n.val + 1 < s.ctr.table.length) :
    ∃ t p c faults os, exec i s = .next t ∧ EndedInside s i n w p c faults os t ∧
      ((p = n ∧ c = w.cycle ∧ os = w.fault.toList ++ faults) ∨
        (p = s.ctr.p ∧ c = s.ctr.c ∧ os = faults ++ w.fault.toList) ∨ (w.fault = none ∧ os = faults) ∨
        (w.took = none ∧ os = w.fault.toList)) := by
  obtain ⟨o, k, u, ha⟩ := h.advances
  obtain ⟨p, c, hk, horder⟩ := ha.took
  have hctr := ha.ctr
  have hm : MidCycle u := ⟨by rw [hctr], by rw [hctr]; exact hn⟩
  obtain ⟨faults, v, htaken, hreported, hlpt, he⟩ := phaseEndWith_inside o hm hk
  have hoff : u.lif.tx = none := by rw [ha.line]; exact h.off
  have hstops : ∀ x, Stops x (advancedInside k.errors u) ↔ Stops x s := fun x => by
    show hasKind u.cfg.masks x = false ∧ hasKind u.cfg.severities x = true ↔ _
    rw [ha.cfg]
  have hstc : (advancedInside k.errors u).stc = w.stc := ha.stc
  have hvcfg : v.cfg = s.cfg := hreported.cfg.trans ha.cfg
  have hvlif : v.lif = u.lif := hreported.lif
  have htracked := hreported.tracked
  have hstation := hreported.station hoff
  simp only [hstc, hstops] at hstation
  have hstart : ∀ {station}, v.stc.station = station → NotOffered (phaseAfter n) station s →
      phaseStart v = v.withCtr { v.ctr with skip := .running 2 } := fun hs hno => by
    refine phaseStart_of_notOffered (q := phaseAfter n) ?_ hs ?_ hvcfg hno
    · rw [htracked]; show phaseAfter u.ctr.p = _; rw [hctr]
    · rw [htracked]; show u.ctr.table = _; rw [hctr]
  refine ⟨_, p, c, faults, reportsInside o k faults, ha.exec_eq, ?_, ?_⟩
  · rw [he]
    exact
      { ctr := by
          have hb : (advancedInside k.errors u).ctr = { u.ctr with p := phaseAfter u.ctr.p } := rfl
          simp only [State.withPmn_ctr, phaseStart_ctr]
          rw [htracked, hb, hctr]
          rfl
        hold := fun hw => by
          show (phaseStart v).ctr.hold = _
          rw [phaseStart_ctr]
          exact hreported.hold (by show u.ctr.hold = _; rw [hctr]; exact hw)
        flt := by
          show (phaseStart v).flt = _
          rw [phaseStart_flt, hreported.flt, ← ha.errors, ← ha.flt, ← ha.cfg]
          rfl
        rxu := by
          show FrameTaken w.took s p c _ (phaseStart v).rxu faults
          rw [phaseStart_rxu, ← ha.rxu]
          exact htaken
        pmn := fun f a hi hf hw => by
          show creditedPmn k u.pmn = _
          rw [creditedPmn, ha.heard, hw, ha.noted f hi hf]
          rfl
        stopped := fun hs hos => by
          rcases hstation with ⟨-, -, hvstc, hvtxs, -⟩ | ⟨hcalm, -⟩
          · have hsilent : v.stc.station = .silent := by rw [hvstc]; rfl
            rw [hstart hsilent (.inr nofun)]
            refine ⟨?_, ?_, ?_⟩
            · simp only [State.withPmn_stc, State.withCtr_stc, hvstc]
              rw [← hstc]
              rfl
            · show v.txs = _
              rw [hvtxs, ← ha.txs]
              rfl
            · show v.lif = _
              rw [hvlif]
              exact ha.line
          · obtain ⟨x, hx, hx'⟩ := hos
            exact absurd hx' (hcalm hs x hx)
        stands := fun hcalm => by
          rcases hstation with ⟨hs, ⟨x, hx, hx'⟩, -⟩ | ⟨-, hvstc, hvtxs, hvctr⟩
          · exact absurd hx' (hcalm hs x hx)
          · refine ⟨?_, ?_, fun hno => ?_⟩
            · show (phaseStart v).stc = _
              rw [phaseStart_stc, hvstc]
            · show (phaseStart v).ctr.hold = _ ∧ (phaseStart v).ctr.coldWait = _ ∧ (phaseStart v).ctr.coldAlignPending = _
              rw [phaseStart_ctr, hvctr]
              show u.ctr.hold = _ ∧ u.ctr.coldWait = _ ∧ u.ctr.coldAlignPending = _
              rw [hctr]
              exact ⟨rfl, rfl, rfl⟩
            · rw [hstart (by rw [hvstc]) hno]
              refine ⟨?_, hvtxs.trans ha.txs, hreported.fru.trans ha.fru⟩
              show v.lif = _
              rw [hvlif]
              exact ha.line
        echo := by
          show (phaseStart v).lif.echoFailures = _
          rw [phaseStart_echoFailures, hvlif, ha.line]
        rest := by
          refine ⟨?_, ?_, ?_⟩
          · exact (phaseStart_cfg v).trans hvcfg
          · exact (phaseStart_rstLow v).trans (hreported.rstLow.trans ha.rstLow)
          · exact (phaseStart_pending v).trans (hreported.pending.trans ha.pending)
        free := fun hw => by
          show (phaseStart v).freeCount = _
          rw [phaseStart_freeCount, hreported.freeCount]
          exact ha.free (by omega) hw
        lpt := fun hnone hno => by
          have hstart' : phaseStart v = v.withCtr { v.ctr with skip := .running 2 } := by
            rcases hstation with ⟨-, -, hvstc, -⟩ | ⟨-, hvstc, -⟩
            · exact hstart (station := .silent) (by rw [hvstc]; rfl) (.inr nofun)
            · exact hstart (by rw [hvstc]) hno
          rw [hstart']
          exact (hlpt hnone).trans ha.lpt }
  · have hnone : w.took = none → faults = [] := fun hw => by
      rw [hw] at htaken
      exact htaken.2
    rw [reportsInside, ha.fault]
    rcases horder with ⟨hp, hc, hf | hw | hb | ho⟩ | ⟨-, hp, hc, ho⟩
    · exact .inr (.inr (.inl ⟨hf, by simp [hf]⟩))
    · exact .inr (.inr (.inr ⟨hw, by simp [hnone hw]⟩))
    · omega
    · exact .inl ⟨hp, hc, if_pos ho⟩
    · exact .inr (.inl ⟨hp, hc, if_neg ho⟩)

end Sys2Proof.Machine
end

section
/-! SUPPORT. Clean frames inside a cycle: acquisition, a frame in step, and realignment (R34, R38, R43, R106, R134, R140 to
R142). -/

namespace Sys2Proof.Machine

variable {f : Gather} {s t : State}

/-! ### The pattern errors of a clean frame -/

theorem EndsWith.checks {outcome : FrameOutcome} (h : EndsWith f outcome s) :
    OutcomeByChecks s.ctr.table s.ctr.digest f outcome := (checkFrame_iff _ _ _ _).mp h.outcome

/-- A clean frame is a DATA frame, or its pattern characters are compared (R18, R20). -/
theorem EndsWith.data_iff (h : EndsWith f .clean s) : kindOf f.bytes = some .data ↔ patternErrors f = none := by
  obtain ⟨hframing, hstructure, hcrc, -⟩ := h.checks
  have hlength : (f.chars.map RxChar.data).length = f.chars.length := List.length_map _
  rw [kindOf_eq_data]
  constructor
  · intro hkind
    refine patternErrors_of_not_compared fun hc => ?_
    have hshort : (byteAt f.bytes 1).toNat / 32 = 2 ∨ (byteAt f.bytes 1).toNat / 32 = 3 := hc.2.2.1
    omega
  · intro hnone
    by_contra hkind
    have hkind' : ¬ (byteAt (f.chars.map RxChar.data) 1).toNat / 32 = 1 := hkind
    have hcompared : PatternCompared f := by
      simp only [StructureFault, not_or, not_and, not_not, hlength] at hstructure
      obtain ⟨-, hlead, hcode, -, hshort⟩ := hstructure
      have hkinds : (byteAt (f.chars.map RxChar.data) 1).toNat / 32 = 2 ∨ (byteAt (f.chars.map RxChar.data) 1).toNat / 32 = 3 := by
        by_contra hn
        rw [not_or] at hn
        exact hn.2 (hcode hkind' hn.1)
      refine ⟨hshort hkinds, hlead, hkinds, fun ch hch => ?_, hcrc⟩
      by_contra hbad
      exact hframing (.inr ⟨ch, List.mem_of_mem_take hch, by simpa using hbad⟩)
    rw [patternErrors_of_compared hcompared] at hnone
    cases hnone

/-- A clean DATA frame raises the line error counter in no selection (R157). -/
theorem counted_clean_data (selection : CounterSelection) : counted selection .clean none = 0 := by
  cases selection <;> rfl

/-! ### The peer records after a clean frame -/

theorem capturesQuality_eq (mode : CaptureMode) (before after : Quality) :
    capturesQuality mode before after = (decide (before ≠ after) && (mode == .any || after == .poor)) := by
  cases mode <;> cases before <;> cases after <;> rfl

/-- The records and the marks after the notices and the heard credit of a clean frame (R134, R140 to R142). -/
theorem credit_notedPmn (f : Gather) (cfg : Items) (x : Pmn) (a : Addr) :
    (credit (senderOf f.bytes) (cycleOf f.bytes) (notedPmn f.bytes (patternErrors f) cfg x)).marks[a] =
        (x.marks[a] || decide (a = senderOf f.bytes)) ∧
      (credit (senderOf f.bytes) (cycleOf f.bytes) (notedPmn f.bytes (patternErrors f) cfg x)).peers[a] =
        notedPeer f .clean cfg.qualityCapture a x.peers[a] := by
  by_cases ha : a = senderOf f.bytes
  · subst ha
    constructor
    · simp [credit, updatePeer]
    · cases he : patternErrors f with
      | none => simp [credit, notedPmn, noteMismatch, notedPeer, he]
      | some e => simp [credit, notedPmn, noteMismatch, measure, notedPeer, he, capturesQuality_eq, qualityOf]
  · have hne : (senderOf f.bytes).val ≠ a.val := fun h => ha (Fin.ext h.symm)
    constructor
    · simp [credit, updatePeer, Vector.getElem_set_ne _ _ hne, ha]
    · cases patternErrors f <;> simp [credit, notedPmn, noteMismatch, measure, notedPeer, ha]

/-! ### The kinds that a run of occurrences records -/

theorem recorded_hasKind (masks : KindSet) (o : Occurrence) (x : Flt) (k : FaultKind) :
    hasKind (recorded masks o x).flags k = true ↔ hasKind x.flags k = true ∨ (hasKind masks k = false ∧ o.kind = k) := by
  unfold recorded
  split_ifs with h
  · refine ⟨.inl, ?_⟩
    rintro (hx | ⟨hm, rfl⟩)
    · exact hx
    · simp [h] at hm
  · simp only [hasKind_addKind, Bool.or_eq_true, decide_eq_true_eq]
    constructor
    · rintro (hx | rfl)
      · exact .inl hx
      · exact .inr ⟨Bool.not_eq_true _ ▸ h, rfl⟩
    · rintro (hx | ⟨-, rfl⟩)
      · exact .inl hx
      · exact .inr rfl

theorem recordedAll_hasKind (masks : KindSet) (os : List Occurrence) (x : Flt) (k : FaultKind) :
    hasKind (recordedAll masks os x).flags k = true ↔
      hasKind x.flags k = true ∨ (hasKind masks k = false ∧ ∃ o ∈ os, o.kind = k) := by
  induction os generalizing x with
  | nil => simp [recordedAll]
  | cons o os ih =>
    have hcons : recordedAll masks (o :: os) x = recordedAll masks os (recorded masks o x) := rfl
    rw [hcons, ih, recorded_hasKind]
    simp only [List.mem_cons, exists_eq_or_imp]
    tauto

@[simp] theorem countErrors_flags (n : Nat) (x : Flt) : (countErrors n x).flags = x.flags := by
  unfold countErrors; split_ifs <;> rfl

@[simp] theorem countErrors_first (n : Nat) (x : Flt) : (countErrors n x).first = x.first := by
  unfold countErrors; split_ifs <;> rfl

/-! ### The station after a clean frame -/

theorem stoppable_active_silent {x : Station} (h : x = .active ∨ x = .silent) :
    stoppable x = true ↔ x = .active := by
  rcases h with rfl | rfl <;> decide

/-- Where the reports of a frame leave an ACTIVE or SILENT station, with which no alignment is acquired (R58, R102). -/
theorem EndedInside.stationAfter {n : Phase} {w : Ending} {p : Phase} {c : Cycle} {faults os : List Occurrence}
    (h : EndedInside s .frameEnd n w p c faults os t) (hw : w.stc = s.stc)
    (hs : s.stc.station = .active ∨ s.stc.station = .silent) :
    StationAfter (∃ o ∈ os, Stops o.kind s) (phaseAfter n) s t := by
  have hline : LineStands .frameEnd w s t → t.lif = s.lif := fun hl => by
    rw [LineStands, hw] at hl
    simpa using hl
  have hstoppable := stoppable_active_silent hs
  have hstands := h.stands
  have hstopped := h.stopped
  rw [hw] at hstands hstopped
  refine ⟨fun hos => ?_, fun hcalm => ?_⟩
  · rcases hs with ha | hsilent
    · obtain ⟨hstc, htxs, hl⟩ := hstopped (hstoppable.mpr ha) hos
      exact ⟨⟨fun h' => absurd (ha.symm.trans h') nofun, fun _ => ⟨hstc, htxs⟩⟩, hline hl⟩
    · obtain ⟨hstc, -, hrest⟩ := hstands fun h' => by rw [hstoppable, hsilent] at h'; cases h'
      obtain ⟨hl, htxs, -⟩ := hrest (.inr (by rw [hsilent]; exact nofun))
      exact ⟨⟨fun _ => ⟨hstc, htxs⟩, fun h' => absurd hsilent h'⟩, hline hl⟩
  · obtain ⟨hstc, -, hrest⟩ := hstands fun _ o ho hk => hcalm ⟨o, ho, hk⟩
    exact ⟨hstc, fun hno => ⟨hline (hrest hno).1, (hrest hno).2.1⟩⟩

end Sys2Proof.Machine

namespace Sys2Proof.Proofs

open Sys2Proof.Machine

/-- Settles O33: the phase end that acquires alignment reports nothing, and the frame is not taken. -/
theorem cleanFrameAcquires : Obligations.CleanFrameAcquires := by
  intro f s hends hunaligned hstation hn hbound
  obtain ⟨t, p, c, faults, os, hexec, he, horder⟩ := (PhaseEnd.acquired f hends hunaligned hstation).inside hn
  obtain ⟨hrxu, rfl⟩ := he.rxu
  have hos : os = [] := by rcases horder with ⟨-, -, h⟩ | ⟨-, -, h⟩ | ⟨-, h⟩ | ⟨-, h⟩ <;> simpa using h
  subst hos
  obtain ⟨hstc, ⟨-, hwait, -⟩, hstands⟩ := he.stands fun _ o ho => absurd ho List.not_mem_nil
  have hctr := he.ctr
  refine ⟨t, hexec, by rw [hctr], ?_, by rw [hctr], by rw [hctr], he.hold rfl, by rw [hctr], ?_, ?_, he.flt, hrxu,
    fun a => ?_⟩
  · rw [hctr]
    exact Nat.mod_eq_of_lt (by omega)
  · intro hs
    have hw : acquiredStc s.stc = s.stc := if_pos hs
    obtain ⟨hline, htxs, -⟩ := hstands (.inr (by rw [hw, hs]; exact nofun))
    refine ⟨hstc.trans hw, ?_, htxs⟩
    rw [LineStands, hw] at hline
    simpa using hline
  · intro hs
    have hw : acquiredStc s.stc = { s.stc with station := .active, coldAttempts := 0, stationCause := true } := if_neg hs
    have hne : ¬ (acquiredStc s.stc).station = s.stc.station := mt (acquiredStc_station_iff hstation).mp hs
    refine ⟨hstc.trans hw, he.echo.trans (if_neg hne), hwait.trans (if_neg hne), fun hno => ?_⟩
    obtain ⟨hline, htxs, -⟩ := hstands (by rw [hw]; exact hno)
    rw [LineStands, if_neg hne] at hline
    exact ⟨hline, htxs⟩
  · rw [he.pmn f _ rfl hends rfl]
    exact credit_notedPmn f s.cfg s.pmn a

/-- Settles O34: the phase end of a frame in step, whose only occurrences are those of a taken frame. -/
theorem cleanFrameInStep : Obligations.CleanFrameInStep := by
  intro f s hin
  obtain ⟨hends, hm, hphase, hcycle, hstation⟩ := hin
  obtain ⟨t, p, c, faults, os, hexec, he, horder⟩ := (PhaseEnd.inStep f hends hm.1 hphase hcycle).inside hm.2
  have hctr := he.ctr
  refine ⟨t, hexec, by rw [hctr], by rw [hctr], by rw [hctr], by rw [hctr], he.hold rfl, by rw [hctr], hends.data_iff,
    fun a => ?_, fun hnot => ?_⟩
  · rw [he.pmn f _ rfl hends rfl, ← hcycle]
    exact credit_notedPmn f s.cfg s.pmn a
  · have htook : (if Taken f s then some f else none) = none := if_neg hnot
    have htaken := he.rxu
    simp only [htook] at htaken
    obtain ⟨hrxu, rfl⟩ := htaken
    have hos : os = [] := by rcases horder with ⟨-, -, h⟩ | ⟨-, -, h⟩ | ⟨-, h⟩ | ⟨-, h⟩ <;> simpa using h
    subst hos
    obtain ⟨hstc, ⟨hhold, hwait, hpending⟩, hstands⟩ := he.stands fun _ o ho => absurd ho List.not_mem_nil
    have hflt : t.flt = countErrors (counted s.cfg.selection .clean (patternErrors f)) s.flt := he.flt
    refine ⟨?_, hstc, hrxu, hflt, fun hdata => ?_, fun hno => ?_⟩
    · rw [hctr, hhold, hwait, hpending]
      simp only [if_true]
      rw [← hm.1]
    · rw [hflt, hends.data_iff.mp hdata, counted_clean_data, countErrors_zero]
    · obtain ⟨hline, htxs, hfru⟩ := hstands hno
      obtain ⟨hcfg, hrst, hpend⟩ := he.rest
      have hlif : t.lif = s.lif := by simpa [LineStands] using hline
      refine ⟨hfru, fun x hx => ?_, hpend⟩
      cases x with
      | ctr | pmn | flt | rxu | fru => simp at hx
      | lif => exact hlif
      | stc => exact hstc
      | txs => exact htxs
      | lpt => exact he.lpt htook hno
      | cfg => exact hcfg
      | rstLow => exact hrst
      | freeCount => exact he.free (.inl rfl)

/-- Settles O35: the SLIP of the realigning frame and the faults of a taken one, in either order. -/
theorem realignmentSlips : Obligations.RealignmentSlips := by
  intro f s hends haligned hstation hdiffers hn hbound
  obtain ⟨t, p, c, faults, os, hexec, he, horder⟩ := (PhaseEnd.realigned f hends haligned hdiffers).inside hn
  have hctr := he.ctr
  have hslip : (⟨.slip, some (senderOf f.bytes), none, s.ctr.p, s.ctr.c, f.bytes.take 8⟩ : FirstFault) ∈ os := by
    rcases horder with ⟨-, -, h⟩ | ⟨-, -, h⟩ | ⟨h, -⟩ | ⟨-, h⟩
    · simp [h]
    · simp [h]
    · cases h
    · simp [h]
  have hafter := he.stationAfter rfl hstation
  refine ⟨t, hexec, by rw [hctr], ?_, by rw [hctr], by rw [hctr], he.hold rfl, by rw [hctr], fun a => ?_, ?_, fun hnot => ?_,
    fun htaken => ?_⟩
  · rw [hctr]
    exact Nat.mod_eq_of_lt (by omega)
  · rw [he.pmn f _ rfl hends rfl]
    exact credit_notedPmn f s.cfg s.pmn a
  · rw [he.flt, recordedAll_hasKind]
    simp only [countErrors_flags]
    exact or_congr_right (and_iff_left ⟨_, hslip, rfl⟩)
  · have htook : (if Taken f s then some f else none) = none := if_neg hnot
    have htaken := he.rxu
    simp only [htook] at htaken
    obtain ⟨hrxu, rfl⟩ := htaken
    have hos : os = [⟨.slip, some (senderOf f.bytes), none, s.ctr.p, s.ctr.c, f.bytes.take 8⟩] := by
      rcases horder with ⟨-, -, h⟩ | ⟨-, -, h⟩ | ⟨h, -⟩ | ⟨-, h⟩
      · simpa using h
      · simpa using h
      · cases h
      · simpa using h
    subst hos
    refine ⟨he.flt, hrxu, ?_⟩
    simpa using hafter
  · have htook : (if Taken f s then some f else none) = some f := if_pos htaken
    have hhandled := he.rxu
    simp only [htook] at hhandled
    obtain ⟨kinds, hhandled, rfl⟩ := hhandled
    refine ⟨kinds, hhandled, ?_, ?_⟩
    · have hflt : t.flt = recordedAll s.cfg.masks os s.flt := by
        have h := he.flt
        simpa only [hends.data_iff.mp htaken.1, counted_clean_data, countErrors_zero] using h
      rw [hflt]
      rcases horder with ⟨rfl, rfl, rfl⟩ | ⟨rfl, rfl, rfl⟩ | ⟨h, -⟩ | ⟨h, -⟩
      · exact .inl rfl
      · exact .inr rfl
      · cases h
      · cases htook.symm.trans h
    · have hstops : (∃ o ∈ os, Stops o.kind s) ↔ Stops .slip s ∨ ∃ k ∈ kinds, Stops k s := by
        rcases horder with ⟨-, -, rfl⟩ | ⟨-, -, rfl⟩ | ⟨h, -⟩ | ⟨h, -⟩
        · simp [frameFault]
        · simp [frameFault, or_and_right, exists_or, or_comm]
        · cases h
        · cases htook.symm.trans h
      rwa [propext hstops] at hafter

end Sys2Proof.Proofs
end

section
/-! SUPPORT. A phase end cut at its phase start: what is reported before it and after it, and a station that is in ACTIVE at the end
(R28, R31, R58, R91). -/

namespace Sys2Proof.Machine

/-! ### A station in ACTIVE after reports -/

theorem stoppingReport_active {s : State} (h : (stoppingReport s).stc.station = .active) :
    s.stc.station = .active ∧ (stoppingReport s).txs = s.txs ∧ (stoppingReport s).ctr = s.ctr := by
  revert h
  unfold stoppingReport
  split_ifs
  · exact fun h => ⟨h, rfl, rfl⟩
  · exact nofun
  · exact fun h => ⟨h, rfl, rfl⟩

theorem raise_active {o : Occurrence} {s : State} (h : (raise o s).stc.station = .active) :
    s.stc.station = .active ∧ (raise o s).txs = s.txs ∧ (raise o s).ctr = s.ctr := by
  by_cases hs : Stops o.kind s
  · rw [raise_stops hs] at h ⊢
    exact stoppingReport_active h
  · rw [raise_calm hs] at h ⊢
    exact ⟨h, rfl, rfl⟩

theorem raiseAll_active {os : List Occurrence} {s : State} (h : (raiseAll os s).stc.station = .active) :
    s.stc.station = .active ∧ (raiseAll os s).txs = s.txs ∧ (raiseAll os s).ctr = s.ctr := by
  induction os generalizing s with
  | nil => exact ⟨h, rfl, rfl⟩
  | cons o os ih =>
    rw [raiseAll_cons] at h ⊢
    obtain ⟨hs, htxs, hctr⟩ := ih h
    obtain ⟨hs', htxs', hctr'⟩ := raise_active hs
    exact ⟨hs', htxs.trans htxs', hctr.trans hctr'⟩

/-- Reports that leave the station in ACTIVE leave the Transmit Scheduler and the Cycle Tracker as they were. -/
theorem Reported.active {os : List Occurrence} {s t : State} (h : Reported os s t) (ht : t.stc.station = .active) :
    s.stc.station = .active ∧ t.txs = s.txs ∧ t.ctr = s.ctr := by
  rw [h.stc] at ht
  rw [h.txs, h.ctr]
  exact raiseAll_active ht

theorem reported_runTasks {k : Work} {took : Option Gather} {s0 : State} {p : Phase} {c : Cycle}
    (hk : k.taken = took.map fun f => takenFrame f s0 p c) (whole : Bool) (p' : Phase) (c' : Cycle) (ts : List Task)
    (s : State) : ∃ os, Reported os s (runTasks k whole p' c' ts s) := by
  have htaken : ∀ g, k.taken = some g → ∃ f s0 p c, g = takenFrame f s0 p c := by
    intro g hg
    obtain ⟨f, -, rfl⟩ := Option.map_eq_some_iff.mp (hk.symm.trans hg)
    exact ⟨f, s0, p, c, rfl⟩
  induction ts generalizing s with
  | nil => exact ⟨[], Reported.refl s⟩
  | cons t ts ih =>
    obtain ⟨os, h⟩ := reported_runTask htaken whole p' c' t s
    obtain ⟨os', h'⟩ := ih (runTask k whole p' c' t s)
    exact ⟨os ++ os', h.trans h'⟩

/-! ### The cut at the phase start -/

/-- The state after the advance and the counting of a phase end (R31, R161). -/
def counting (o : Config.FrameEndOrder) (k : Work) (u : State) : State :=
  countAtEnd o (endsCycle u) k.errors (u.withCtr (advanced u))

/-- The heard credit, where the order takes it first. -/
def creditIf (b : Bool) (k : Work) (u : State) : State := if b then creditHeard k u else u

/-- The state in which the next phase begins. -/
def atStart (o : Config.FrameEndOrder) (k : Work) (u : State) : State :=
  runTasks k u.ctr.whole (nextPhase u) (nextCycle u) (tasksBefore o (endsCycle u)) (creditIf o.creditFirst k (counting o k u))

/-- What a phase end from `u` does after its phase start. -/
def afterStart (o : Config.FrameEndOrder) (k : Work) (u v : State) : State :=
  creditIf (!o.creditFirst) k
    (if endsCycle u && o.selectFirst then pmnBoundary u.ctr.whole (nextPhase u) (nextCycle u) v else v)

theorem phaseEndWith_eq (o : Config.FrameEndOrder) (k : Work) {u : State} (h : u.ctr.aligned = true) :
    phaseEndWith o k u = afterStart o k u (phaseStart (atStart o k u)) := by
  simp only [phaseEndWith, afterStart, atStart, counting, creditIf, h, if_true]
  cases o.creditFirst <;> rfl

theorem reported_creditIf (b : Bool) (k : Work) (s : State) : Reported [] s (creditIf b k s) := by
  cases b
  · exact Reported.refl s
  · exact reported_creditHeard k s

theorem reported_atStart (o : Config.FrameEndOrder) {k : Work} {took : Option Gather} {s0 : State} {p : Phase} {c : Cycle}
    (hk : k.taken = took.map fun f => takenFrame f s0 p c) (u : State) :
    ∃ os, Reported os (counting o k u) (atStart o k u) := by
  obtain ⟨os, h⟩ := reported_runTasks hk u.ctr.whole (nextPhase u) (nextCycle u) (tasksBefore o (endsCycle u))
    (creditIf o.creditFirst k (counting o k u))
  exact ⟨os, (reported_creditIf _ _ _).trans h⟩

theorem reported_afterStart (o : Config.FrameEndOrder) (k : Work) (u v : State) :
    ∃ os, Reported os v (afterStart o k u v) := by
  unfold afterStart
  split
  · exact ⟨_, (reported_pmnBoundary _ _ _ v).trans (reported_creditIf _ _ _)⟩
  · exact ⟨_, (Reported.refl v).trans (reported_creditIf _ _ _)⟩

/-! ### The presences that the selection reads (R91) -/

theorem creditIf_presence (b : Bool) (k : Work) (u : State) (a : Addr) :
    (creditIf b k u).pmn.peers[a].presence = u.pmn.peers[a].presence := by
  cases b
  · rfl
  · show (creditHeard k u).pmn.peers[a].presence = _
    rw [creditHeard_eq]
    show (creditedPmn k u.pmn).peers[a].presence = _
    unfold creditedPmn
    split
    · next x cycle _ => by_cases ha : a = x <;> simp [credit, ha]
    · rfl

theorem mem_insertTask {o : Config.FrameEndOrder} {t x : Task} {ts : List Task} :
    x ∈ insertTask o t ts ↔ x = t ∨ x ∈ ts := by
  induction ts with
  | nil => simp [insertTask]
  | cons u ts ih =>
    unfold insertTask
    split_ifs
    · simp
    · simp only [List.mem_cons, ih]
      tauto

theorem mem_orderTasks {o : Config.FrameEndOrder} {x : Task} {ts : List Task} : x ∈ orderTasks o ts ↔ x ∈ ts := by
  induction ts with
  | nil => simp [orderTasks]
  | cons t ts ih => rw [orderTasks, mem_insertTask, ih, List.mem_cons]

/-- Every task but the presence evaluation leaves the Peer Monitor as it is. -/
theorem runTask_pmn {k : Work} {whole : Bool} {p : Phase} {c : Cycle} {t : Task} (h : t ≠ .presence) (s : State) :
    (runTask k whole p c t s).pmn = s.pmn := by
  cases t with
  | fault => simp [runTask]
  | frame => simp only [runTask]; split <;> simp
  | aging => simp [runTask]
  | presence => exact absurd rfl h

theorem runTasks_pmn {k : Work} {whole : Bool} {p : Phase} {c : Cycle} {ts : List Task} (h : Task.presence ∉ ts) (s : State) :
    (runTasks k whole p c ts s).pmn = s.pmn := by
  induction ts generalizing s with
  | nil => rfl
  | cons t ts ih =>
    have hcons : runTasks k whole p c (t :: ts) s = runTasks k whole p c ts (runTask k whole p c t s) := rfl
    rw [hcons, ih (fun hm => h (List.mem_cons_of_mem _ hm)), runTask_pmn fun ht => h (by simp [ht])]

@[simp] theorem counting_pmn (o : Config.FrameEndOrder) (k : Work) (u : State) : (counting o k u).pmn = u.pmn := by
  simp [counting]

/-- The selection reads the presences as they were before the phase end, or as they are after it. -/
theorem atStart_presence (o : Config.FrameEndOrder) (k : Work) (u : State) :
    (∀ a : Addr, (atStart o k u).pmn.peers[a].presence = u.pmn.peers[a].presence) ∨
      ∀ v : State, v.pmn = (atStart o k u).pmn →
        ∀ a : Addr, (atStart o k u).pmn.peers[a].presence = (afterStart o k u v).pmn.peers[a].presence := by
  by_cases h : (endsCycle u && o.selectFirst) = true
  · left
    obtain ⟨hb, hs⟩ := Bool.and_eq_true_iff.mp h
    have hno : Task.presence ∉ tasksBefore o (endsCycle u) := by
      simp [tasksBefore, mem_orderTasks, hb, hs]
    intro a
    rw [atStart, runTasks_pmn hno, creditIf_presence, counting_pmn]
  · right
    intro v hv a
    rw [afterStart, if_neg h, creditIf_presence, hv]

end Sys2Proof.Machine
end

section
/-! SUPPORT. An own phase that is offered: the frame that starts or is withheld, and the levels of the line (R2, R6, R15, R22, R28,
R87, R88, R98). -/

namespace Sys2Proof.Machine

/-! ### The frame of a request -/

section

variable {s : State}

/-- With the receiver in IDLE and no frame on the line, a FILL frame of this moment starts (R6, R15, R22). -/
theorem sendRequest_fill_idle (h : s.lif.receiver = .idle) (hf : s.fru.frame = none) :
    sendRequest .fill s = ((s.withTxs { s.txs with inFlight := some .fill }).withLif { s.lif with
      tx := some ⟨shortFrame .fill s.cfg.ownAddress s.ctr.p s.ctr.c s.ctr.digest ⟨s.fru.testPattern, s.fru.testCrc⟩, 0,
        false⟩ }).withFru ⟨some ⟨[], true, false, false, false⟩, false, false⟩ := by
  have hins : insertionsFor .fill s.fru = ⟨s.fru.testPattern, s.fru.testCrc⟩ := by
    rw [insertionsFor]
    congr 1
    exact Bool.and_true _
  have hused : ({ insertionsUsed .fill s.fru with frame := some (ownFrame s.fru.frame) } : Fru) =
      ⟨some ⟨[], true, false, false, false⟩, false, false⟩ := by
    rw [hf]
    simp [insertionsUsed, ownFrame]
  rw [sendRequest, if_pos h]
  simp only [FrameRequest.inFlight, startTransmission, fillBytes, hins]
  rw [← hused]
  rfl

theorem sendRequest_withheld (r : FrameRequest) (h : s.lif.receiver ≠ .idle) : sendRequest r s = s := if_neg h

/-- The skip expiry of an own phase that sends FILL, from the state in which the phase is offered. -/
theorem sendsFill_of_exec {s : State} {i : Instr} {c : Ctr} (hf : s.fru.frame = none)
    (h : exec i s = .next (sendRequest .fill (s.withCtr c))) : SendsFill i c s := by
  refine ⟨fun hi => ?_, fun hi => ?_⟩
  · rw [h, sendRequest_fill_idle (s := s.withCtr c) hi hf]
    rfl
  · rw [h, sendRequest_withheld (s := s.withCtr c) _ hi]
    rfl

/-- A request changes the frame in flight alone at the Transmit Scheduler (R97). -/
theorem sendRequest_txs (r : FrameRequest) (s : State) :
    (sendRequest r s).txs = { s.txs with inFlight := (sendRequest r s).txs.inFlight } := by
  unfold sendRequest
  split
  · cases r with
    | fill => rfl
    | data tag index last => simp only; split <;> rfl
  · rfl

/-- With no candidate the request is for FILL, and the contexts stand (R88). -/
theorem ownPhaseStart_empty {floor : Cls} (h : ∀ k : Cls, k ≤ floor → s.txs.queues[k] = []) :
    ownPhaseStart floor s = sendRequest .fill s := by
  have hc := candidate_none.mpr h
  simp only [ownPhaseStart, select, hc]

end

/-! ### The state in which an own phase is offered -/

/-- What stands of `s` in the state `v` in which the own phase of p and c is offered: everything that the frame is built from. -/
structure OfferedFrom (i : Instr) (p : Phase) (c : Cycle) (s v : State) : Prop where
  cfg : v.cfg = s.cfg
  phase : v.ctr.p = p
  cycle : v.ctr.c = c
  digest : v.ctr.digest = s.ctr.digest
  idle : v.lif.receiver = .idle ↔ IdleAtStart i s
  off : v.lif.tx = none
  fru : v.fru = { s.fru with frame := none }

/-- The contexts that the selection settles have no part in the rest. -/
theorem OfferedFrom.withTxs {i : Instr} {p : Phase} {c : Cycle} {s v : State} (h : OfferedFrom i p c s v) (x : Txs) :
    OfferedFrom i p c s (v.withTxs x) := ⟨h.cfg, h.phase, h.cycle, h.digest, h.idle, h.off, h.fru⟩

/-- A FILL request: the frame starts, or it is withheld. -/
theorem OfferedFrom.fill {i : Instr} {p : Phase} {c : Cycle} {s v : State} (h : OfferedFrom i p c s v) :
    (IdleAtStart i s → FillStarted p c s (sendRequest .fill v)) ∧
      (¬ IdleAtStart i s → v.txs.inFlight = none → Withheld s (sendRequest .fill v)) := by
  by_cases hi : v.lif.receiver = .idle
  · rw [sendRequest_fill_idle hi (by rw [h.fru])]
    refine ⟨fun _ => ⟨?_, rfl, rfl⟩, fun hn => absurd (h.idle.mp hi) hn⟩
    · show some (⟨shortFrame .fill v.cfg.ownAddress v.ctr.p v.ctr.c v.ctr.digest ⟨v.fru.testPattern, v.fru.testCrc⟩, 0,
        false⟩ : Transmission) = _
      rw [h.cfg, h.phase, h.cycle, h.digest, h.fru]
  · rw [sendRequest_withheld _ hi]
    exact ⟨fun hn => absurd (h.idle.mpr hn) hi, fun _ hin => ⟨h.off, h.fru, hin⟩⟩

theorem FillStarted.congr {p : Phase} {c : Cycle} {s t u : State} (h : FillStarted p c s t) (hlif : u.lif = t.lif)
    (hfru : u.fru = t.fru) (htxs : u.txs = t.txs) : FillStarted p c s u :=
  ⟨by rw [hlif]; exact h.tx, by rw [hfru]; exact h.fru, by rw [htxs]; exact h.inFlight⟩

theorem Withheld.congr {s t u : State} (h : Withheld s t) (hlif : u.lif = t.lif) (hfru : u.fru = t.fru)
    (htxs : u.txs = t.txs) : Withheld s u :=
  ⟨by rw [hlif]; exact h.tx, by rw [hfru]; exact h.fru, by rw [htxs]; exact h.inFlight⟩

/-- An own phase in ACTIVE with HOLD clear is offered (R28). -/
theorem phaseStart_offered {e : PhaseEntry} {v : State} (hentry : v.ctr.table[v.ctr.p.val]? = some e)
    (hown : e.owner = v.cfg.ownAddress) (hs : v.stc.station = .active) (hh : v.ctr.hold = false) :
    phaseStart v = ownPhaseStart e.floor (v.withCtr { v.ctr with skip := .running 2 }) := by
  rcases phaseStart_cases v with ⟨e', he', -, -, -, heq⟩ | ⟨h, -⟩
  · rw [heq, Option.some.inj (he'.symm.trans hentry)]
  · rcases h with h | h | h
    · simp [hentry, hown] at h
    · exact absurd hs h
    · simp [hh] at h

/-! ### The phase that begins when a phase ends -/

section

variable {o : Config.FrameEndOrder} {k : Work} {s u : State} {i : Instr} {n : Phase} {w : Ending}

theorem Advances.aligned (h : Advances o k s i n w u) : u.ctr.aligned = true := by rw [h.ctr]

theorem Advances.endsCycle_iff (h : Advances o k s i n w u) : endsCycle u = true ↔ n.val + 1 = s.ctr.table.length := by
  rw [endsCycle_eq_true_iff, LastPhase, h.ctr]
  exact and_iff_right rfl

/-- The Cycle Tracker after the advance of a phase end (R31, R32). -/
theorem Advances.advanced (h : Advances o k s i n w u) : advanced u = { u.ctr with
    p := (beginsAfter n w s).1, c := (beginsAfter n w s).2
    whole := w.whole || decide (n.val + 1 = s.ctr.table.length)
    hold := w.hold && !decide (n.val + 1 = s.ctr.table.length) } := by
  have hends : endsCycle u = decide (n.val + 1 = s.ctr.table.length) := by
    rw [Bool.eq_iff_iff, h.endsCycle_iff, decide_eq_true_iff]
  have hp : u.ctr.p = n := by rw [h.ctr]
  have hc : u.ctr.c = w.cycle := by rw [h.ctr]
  have hwhole : u.ctr.whole = w.whole := by rw [h.ctr]
  have hhold : u.ctr.hold = w.hold := by rw [h.ctr]
  rw [Machine.advanced, if_pos h.aligned, nextPhase, nextCycle, hends, hp, hc, hwhole, hhold, beginsAfter]
  by_cases hn : n.val + 1 = s.ctr.table.length <;> simp [hn]

theorem counting_ctr : (counting o k u).ctr = advanced u := by simp [counting]

/-- What the phase start finds, whatever was reported before it (R31, R58). -/
theorem Advances.startState (h : Advances o k s i n w u) :
    (∃ os, Reported os (counting o k u) (atStart o k u)) ∧ (atStart o k u).cfg = s.cfg ∧
      (atStart o k u).lif = u.lif ∧ (atStart o k u).fru = u.fru ∧
      (atStart o k u).lpt = { s.lpt with dlvReq := (atStart o k u).lpt.dlvReq } ∧
      (atStart o k u).ctr = { u.ctr with
        p := (beginsAfter n w s).1, c := (beginsAfter n w s).2
        whole := w.whole || decide (n.val + 1 = s.ctr.table.length)
        hold := (atStart o k u).ctr.hold, coldWait := (atStart o k u).ctr.coldWait
        coldAlignPending := (atStart o k u).ctr.coldAlignPending } := by
  obtain ⟨p, c, hk, -⟩ := h.took
  obtain ⟨os, hr⟩ := reported_atStart o hk u
  refine ⟨⟨os, hr⟩, ?_, ?_, ?_, ?_, ?_⟩
  · rw [hr.cfg]; simpa [counting] using h.cfg
  · rw [hr.lif]; simp [counting]
  · rw [hr.fru]; simp [counting]
  · have hl := hr.lines
    have hc : (counting o k u).lpt = s.lpt := by simpa [counting] using h.lpt
    rwa [hc] at hl
  · have ht := hr.tracked
    rwa [counting_ctr, h.advanced] at ht

/-- A station in ACTIVE at the phase start: nothing has stopped it, and the contexts stand. -/
theorem Advances.start_active (h : Advances o k s i n w u) (ha : (atStart o k u).stc.station = .active) :
    (atStart o k u).txs = s.txs ∧ (atStart o k u).ctr.hold = (w.hold && !decide (n.val + 1 = s.ctr.table.length)) := by
  obtain ⟨⟨os, hr⟩, -⟩ := h.startState
  obtain ⟨-, htxs, hctr⟩ := hr.active ha
  refine ⟨?_, ?_⟩
  · rw [htxs]; simpa [counting] using h.txs
  · rw [hctr, counting_ctr, h.advanced]

/-- The state after the phase start: what is reported there leaves the line and the frame as they are. -/
theorem Advances.final (h : Advances o k s i n w u) :
    ∃ os t, exec i s = .next t ∧ t = afterStart o k u (phaseStart (atStart o k u)) ∧
      Reported os (phaseStart (atStart o k u)) t ∧ t.ctr.aligned = true ∧ t.ctr.p = (beginsAfter n w s).1 ∧
      t.ctr.c = (beginsAfter n w s).2 ∧ t.ctr.skip = .running 2 ∧ t.ctr.table = s.ctr.table := by
  obtain ⟨os, hr⟩ := reported_afterStart o k u (phaseStart (atStart o k u))
  have hctr := hr.tracked
  rw [phaseStart_ctr, h.startState.2.2.2.2.2, h.ctr] at hctr
  refine ⟨os, _, h.exec_eq.trans (by rw [phaseEndWith_eq o k h.aligned]), rfl, hr, ?_⟩
  rw [hctr]
  exact ⟨rfl, rfl, rfl, rfl, rfl⟩

end

/-- The own phase that begins, offered to a station that is in ACTIVE after the phase end. -/
theorem BeginsOwn.offered {o : Config.FrameEndOrder} {k : Work} {s u t : State} {i : Instr} {n : Phase} {w : Ending}
    {e : PhaseEntry} {os : List Occurrence} (h : BeginsOwn i n w e s) (ha : Advances o k s i n w u)
    (hr : Reported os (phaseStart (atStart o k u)) t) (ht : t.stc.station = .active) :
    ∃ v, v = (atStart o k u).withCtr { (atStart o k u).ctr with skip := .running 2 } ∧
      OfferedFrom i (beginsAfter n w s).1 (beginsAfter n w s).2 s v ∧ v.txs = s.txs ∧
      (∀ a : State, a.ctr = (atStart o k u).ctr → a.cfg = (atStart o k u).cfg → a.stc = (atStart o k u).stc →
        phaseStart a = ownPhaseStart e.floor (a.withCtr { a.ctr with skip := .running 2 })) ∧
      t.lif = (ownPhaseStart e.floor v).lif ∧ t.fru = (ownPhaseStart e.floor v).fru ∧ t.txs = (ownPhaseStart e.floor v).txs := by
  obtain ⟨hactive, htxs, -⟩ := hr.active ht
  rw [phaseStart_stc] at hactive
  obtain ⟨-, hcfg, hlif, hfru, -, hctr⟩ := ha.startState
  obtain ⟨hvtxs, hvhold⟩ := ha.start_active hactive
  have hhold : (atStart o k u).ctr.hold = false := by
    rw [hvhold]
    rcases h.hold with hw | hn
    · simp [hw]
    · simp [hn]
  have htable : (atStart o k u).ctr.table = s.ctr.table := by rw [hctr]; show u.ctr.table = _; rw [ha.ctr]
  have hp : (atStart o k u).ctr.p = (beginsAfter n w s).1 := by rw [hctr]
  have hoffered : ∀ a : State, a.ctr = (atStart o k u).ctr → a.cfg = (atStart o k u).cfg → a.stc = (atStart o k u).stc →
      phaseStart a = ownPhaseStart e.floor (a.withCtr { a.ctr with skip := .running 2 }) := fun a hactr hacfg hastc =>
    phaseStart_offered (by rw [hactr, htable, hp]; exact h.entry) (by rw [hacfg, hcfg]; exact h.own)
      (by rw [hastc]; exact hactive) (by rw [hactr]; exact hhold)
  have hstart := hoffered _ rfl rfl rfl
  refine ⟨_, rfl, ?_, hvtxs, hoffered, ?_, ?_, ?_⟩
  · exact
      { cfg := hcfg
        phase := hp
        cycle := by show (atStart o k u).ctr.c = _; rw [hctr]
        digest := by show (atStart o k u).ctr.digest = _; rw [hctr]; show u.ctr.digest = _; rw [ha.ctr]
        idle := by
          show (atStart o k u).lif.receiver = _ ↔ _
          rw [hlif, ha.line, IdleAtStart]
          by_cases hi : i = .falseStart <;> simp [hi]
        off := by show (atStart o k u).lif.tx = _; rw [hlif, ha.line]; exact h.ends.off
        fru := by
          show (atStart o k u).fru = _
          rw [hfru, ha.fru]
          by_cases hi : i = .frameEnd
          · simp [hi]
          · have hnone : s.fru.frame.filter Gather.begun = none := by
              cases hf : s.fru.frame with
              | none => rfl
              | some g => simp [Option.filter, h.frame hi g hf]
            rw [if_neg hi, hnone] }
  · rw [hr.lif, hstart]
  · rw [hr.fru, hstart]
  · rw [htxs, hstart]

/-- A skip expiry inside a cycle offers the own phase that follows, and changes nothing else (R28, R29, R31). -/
theorem OffersOwn.exec {e : PhaseEntry} {s : State} (h : OffersOwn e s) :
    exec .skipExpiry s = .next (ownPhaseStart e.floor (s.withCtr (advancedCtr s))) := by
  obtain ⟨ct, hct⟩ := h.timer
  have hentry : s.ctr.table[(phaseAfter s.ctr.p).val]? = some e := by rw [phaseAfter_val h.small]; exact h.entry
  have hstart := phaseStart_offered (v := s.withCtr { s.ctr with p := phaseAfter s.ctr.p }) hentry h.own h.station h.hold
  rw [exec_skipExpiry_free h.mid.1 hct h.driver h.receiver, skipExpire, dropUnheard_of_none h.frame, phaseEnd_nothing h.mid,
    hstart]
  rfl

/-! ### The levels of the line (R2, R6) -/

theorem lde_on {s : State} {x : Transmission} (h : s.lif.tx = some x) : lde s = true := by simp [lde, h]

/-- A character on the line shows its start bit, its data bits from bit 0 up, and its stop bit. -/
theorem showsCharacter_of_get {s : State} {x : Transmission} {j : Nat} {b : Byte} (h : s.lif.tx = some x)
    (hj : x.bytes[j]? = some b) : ShowsCharacter s (10 * j) b := by
  have hbit : ∀ m < 10, ltx s (10 * j + m) = ((characterBits b)[m]?).getD true := fun m hm => by
    rw [ltx_on h, List.getD_eq_getElem?_getD, frameBits_get hj hm]
  refine ⟨hbit 0 (by omega), fun m => ?_, hbit 9 (by omega)⟩
  rw [Nat.add_assoc, hbit _ (by omega)]
  fin_cases m <;> rfl

theorem ltx_after {s : State} {x : Transmission} (h : s.lif.tx = some x) {m : Nat} (hm : 10 * x.bytes.length ≤ m) :
    ltx s m = true := by
  rw [ltx_on h, List.getD_eq_default _ _ (by rw [frameBits_length]; exact hm)]

end Sys2Proof.Machine

namespace Sys2Proof.Proofs

open Sys2Proof.Machine

/-- Settles O42: with no candidate the request is for FILL, and the line shows the frame's characters. -/
theorem ownPhaseSendsFill : Obligations.OwnPhaseSendsFill := by
  refine ⟨fun e s hoffers hempty => ?_, fun i n w e s hbegins hflight hempty => ?_, fun s hoff => ?_, fun x s hon => ?_⟩
  · refine sendsFill_of_exec hoffers.frame ?_
    rw [hoffers.exec, ownPhaseStart_empty (s := s.withCtr (advancedCtr s)) hempty]
  · obtain ⟨o, k, u, ha⟩ := hbegins.ends.advances
    obtain ⟨os, t, hexec, -, hr, haligned, hp, hc, hskip, -⟩ := ha.final
    refine ⟨t, hexec, haligned, hp, hc, hskip, fun hactive => ?_⟩
    obtain ⟨v, -, hv, hvtxs, -, hlif, hfru, htxs⟩ := hbegins.offered ha hr hactive
    rw [ownPhaseStart_empty (by rw [hvtxs]; exact hempty)] at hlif hfru htxs
    obtain ⟨hstarted, hwithheld⟩ := hv.fill
    refine ⟨?_, fun hi => (hstarted hi).congr hlif hfru htxs,
      fun hi => (hwithheld hi (by rw [hvtxs]; exact hflight)).congr hlif hfru htxs⟩
    rw [htxs, sendRequest_txs, hvtxs]
  · exact ⟨by simp [lde, hoff], ltx_off hoff⟩
  · exact ⟨lde_on hon, fun j b => showsCharacter_of_get hon, fun m => ltx_after hon⟩

end Sys2Proof.Proofs
end

section
/-! SUPPORT. The contexts that a selection settles, and the DATA frame of the next segment (R74, R85, R86, R92 to R97). -/

namespace Sys2Proof.Machine

section

variable {s : State} {m : Message} {k : Cls} (hinv : ContextInv s) (hm : s.txs.queues[k].head? = some m)
include hinv hm

omit hinv in
theorem head_mem_messages : m ∈ messages s.txs := mem_messages.mpr ⟨k, List.mem_of_head? hm⟩

theorem ContextInv.head_cls : m.cls = k := (hinv.records.placed k m (List.mem_of_head? hm)).1

/-- A STARTED candidate, ahead of which no class holds a record, is the first of the contexts (R86). -/
theorem ContextInv.first_context (hstarted : m.isStarted = true) (hj : ∀ j : Cls, j < k → s.txs.queues[j] = []) :
    (contexts s.txs).head? = some m.tag := by
  obtain ⟨ms, htags, hheads, hsorted, hall, -⟩ := hinv.ordered
  have hmem := hall m (head_mem_messages hm) hstarted
  cases ms with
  | nil => cases hmem
  | cons x xs =>
    rw [← htags]
    rcases List.mem_cons.mp hmem with rfl | hxs
    · rfl
    · have hlt : x.cls < m.cls := List.rel_of_pairwise_cons hsorted (List.mem_map_of_mem hxs)
      have hempty := hj x.cls (by rw [← hinv.head_cls hm]; exact hlt)
      have hx := (hheads x List.mem_cons_self).1
      rw [hempty] at hx
      cases hx

/-- A QUEUED record is no context (R85). -/
theorem ContextInv.not_context (hqueued : m.isStarted = false) : m.tag ∉ contexts s.txs := by
  obtain ⟨ms, htags, hheads, -⟩ := hinv.ordered
  intro hc
  rw [← htags] at hc
  obtain ⟨x, hx, htag⟩ := List.mem_map.mp hc
  obtain ⟨hhead, hstarted⟩ := hheads x hx
  have hxm : x = m := eq_of_tag hinv.records.tags (head_mem_messages hm) (mem_messages.mpr ⟨x.cls, List.mem_of_head? hhead⟩) htag
  rw [hxm, hqueued] at hstarted
  cases hstarted

/-- Of one tag a queue holds the candidate alone, at its head (R73). -/
theorem ContextInv.queue_eq : s.txs.queues[k] = m :: s.txs.queues[k].tail ∧ ∀ x ∈ s.txs.queues[k].tail, x.tag ≠ m.tag := by
  have hcons := (List.cons_head?_tail hm).symm
  refine ⟨hcons, ?_⟩
  have hsub : List.Sublist s.txs.queues[k] (messages s.txs) :=
    List.sublist_flatten_of_mem (by simp)
  have hnodup := hinv.records.tags.sublist (hsub.map Message.tag)
  rw [hcons, List.map_cons, List.nodup_cons] at hnodup
  intro x hx htag
  exact hnodup.1 (htag ▸ List.mem_map_of_mem hx)

/-- No other queue holds the candidate's tag. -/
theorem ContextInv.other_queue {j : Cls} (hj : j ≠ k) {x : Message} (hx : x ∈ s.txs.queues[j]) : x.tag ≠ m.tag := by
  intro htag
  have hxm : x = m := eq_of_tag hinv.records.tags (head_mem_messages hm) (mem_messages.mpr ⟨j, hx⟩) htag
  refine hj ?_
  rw [← (hinv.records.placed j x hx).1, hxm, hinv.head_cls hm]

/-- An update of the candidate's record reaches the head of its queue alone. -/
theorem ContextInv.updateMessage_queues (f : Message → Message) (j : Cls) :
    (updateMessage m.tag f s.txs).queues[j] = if j = k then f m :: s.txs.queues[k].tail else s.txs.queues[j] := by
  have hmap : (updateMessage m.tag f s.txs).queues[j] = s.txs.queues[j].map fun x => if x.tag == m.tag then f x else x := by
    simp [updateMessage]
  rw [hmap]
  split_ifs with hj
  · subst hj
    obtain ⟨hcons, hother⟩ := hinv.queue_eq hm
    rw [hcons, List.map_cons, if_pos (by simp), List.tail_cons]
    congr 1
    conv_rhs => rw [← List.map_id s.txs.queues[j].tail]
    exact List.map_congr_left fun x hx => by simp [hother x hx]
  · conv_rhs => rw [← List.map_id s.txs.queues[j]]
    exact List.map_congr_left fun x hx => by simp [hinv.other_queue hm hj hx]

end

/-! ### The contexts after a selection (R92 to R94) -/

/-- A first context is kept, or popped. -/
theorem settleContexts_first {m : Message} {t : Txs} (h : (contexts t).head? = some m.tag) :
    settleContexts m t = { t with
      current := some m.tag, stack := if t.current = some m.tag then t.stack else t.stack.tail } ∧
      (t.current = some m.tag ∨ (t.current = none ∧ t.stack.head? = some m.tag)) := by
  cases hc : t.current with
  | some tag =>
    have ht : tag = m.tag := by simpa [contexts, hc] using h
    subst ht
    refine ⟨?_, .inl rfl⟩
    simp only [settleContexts, hc, if_true]
    rw [← hc]
  | none =>
    cases hs : t.stack with
    | nil => simp [contexts, hc, hs] at h
    | cons top below =>
      have ht : top = m.tag := by simpa [contexts, hc, hs] using h
      subst ht
      exact ⟨by simp [settleContexts, hc, hs], .inr ⟨rfl, rfl⟩⟩

/-- A message that is no context is started, and the current context is pushed. -/
theorem settleContexts_new {m : Message} {t : Txs} (h : m.tag ∉ contexts t) :
    settleContexts m t = startMessage m { t with stack := t.current.toList ++ t.stack } := by
  cases hc : t.current with
  | some tag =>
    have ht : ¬ tag = m.tag := fun he => h (by simp [contexts, hc, he])
    simp [settleContexts, hc, ht]
  | none =>
    cases hs : t.stack with
    | nil =>
      have hsame : ({ t with current := none, stack := [] } : Txs) = t := by rw [← hc, ← hs]
      simp [settleContexts, hc, hs, hsame]
    | cons top below =>
      have ht : ¬ top = m.tag := fun he => h (by simp [contexts, hc, hs, he])
      have hsame : ({ t with current := none, stack := top :: below } : Txs) = t := by rw [← hc, ← hs]
      simp [settleContexts, hc, hs, ht, hsame]

theorem settled_settleContexts {s t : State} {m : Message} {k : Cls} (hinv : ContextInv s)
    (hm : s.txs.queues[k].head? = some m) (hj : ∀ j : Cls, j < k → s.txs.queues[j] = [])
    (ht : t.txs = { settleContexts m s.txs with inFlight := t.txs.inFlight }) : Settled m k s t := by
  by_cases hstarted : m.isStarted = true
  · obtain ⟨heq, hcontext⟩ := settleContexts_first (hinv.first_context hm hstarted hj)
    have hnumber : ¬ m.number = none := by simpa [Message.isStarted, Option.isSome_iff_ne_none] using hstarted
    have hstate : m = { m with state := .started (numberFor m k s) m.sent } := by
      have hn : numberFor m k s = m.number.getD 0 := by
        unfold numberFor
        cases hm' : m.number with
        | none => exact absurd hm' hnumber
        | some n => rfl
      rw [hn, ← state_of_isStarted hstarted]
    exact
      { current := by rw [ht, heq]
        stack := by
          rw [ht, heq]
          rcases hcontext with hc | ⟨hc, hs⟩
          · simp [hc]
          · simp [hc, hs]
        queue := by rw [ht, heq, ← hstate]; exact (hinv.queue_eq hm).1
        number := by rw [ht, heq, if_neg hnumber]
        others := fun _ _ => by rw [ht, heq]; exact ⟨rfl, rfl⟩
        rest := by rw [ht, heq]; exact ⟨rfl, rfl, rfl⟩ }
  · have hnot := hinv.not_context hm (Bool.not_eq_true _ ▸ hstarted)
    have heq := settleContexts_new hnot
    have hstate : m.state = .queued := by
      cases hs : m.state with
      | queued => rfl
      | started number sent => simp [Message.isStarted, Message.number, hs] at hstarted
    have hnumber : m.number = none := by simp [Message.number, hstate]
    have hsent : m.sent = 0 := by simp [Message.sent, hstate]
    have hnext : numberFor m k s = s.txs.numbers[k] := by simp [numberFor, hnumber]
    have hcls := hinv.head_cls hm
    have hqueues : ∀ j : Cls, t.txs.queues[j] =
        if j = k then { m with state := .started (numberFor m k s) m.sent } :: s.txs.queues[k].tail
        else s.txs.queues[j] := by
      intro j
      have hu := hinv.updateMessage_queues hm (fun x => { x with state := .started s.txs.numbers[k] 0 }) j
      rw [hnext, hsent, ← hu, ht, heq, ← hcls]
      rfl
    have hnumbers : t.txs.numbers = s.txs.numbers.set k (s.txs.numbers[k] + 1) := by
      rw [ht, heq, ← hcls]
      rfl
    have hcurrent : ¬ s.txs.current = some m.tag := fun hc => hnot (by simp [contexts, hc])
    have hstack : ¬ (s.txs.stack.head? = some m.tag ∧ s.txs.current = none) := fun hc =>
      hnot (by simp [contexts, List.mem_of_head? hc.1])
    exact
      { current := by rw [ht, heq]; rfl
        stack := by rw [ht, heq, if_neg hcurrent, if_neg hstack]; rfl
        queue := by rw [hqueues, if_pos rfl]
        number := by rw [hnumbers, if_pos hnumber]; simp
        others := fun j hne => by
          refine ⟨by rw [hqueues, if_neg hne], ?_⟩
          have hne' : k.val ≠ j.val := fun h => hne (Fin.ext h.symm)
          rw [hnumbers]
          exact Vector.getElem_set_ne _ _ hne'
        rest := by rw [ht, heq]; exact ⟨rfl, rfl, rfl⟩ }

/-! ### The records after a selection -/

/-- A start changes no tag. -/
theorem startMessage_tags (m : Message) (t : Txs) :
    (messages (startMessage m t)).map Message.tag = (messages t).map Message.tag := by
  have hm : messages (startMessage m t) =
      messages (updateMessage m.tag (fun x => { x with state := .started t.numbers[m.cls] 0 }) t) := rfl
  rw [hm, messages_updateMessage, List.map_map]
  refine List.map_congr_left fun x _ => ?_
  simp only [Function.comp]
  split <;> rfl

theorem settleContexts_tags (m : Message) (t : Txs) :
    (messages (settleContexts m t)).map Message.tag = (messages t).map Message.tag := by
  unfold settleContexts
  split
  · split
    · rfl
    · exact startMessage_tags _ _
  · split
    · rfl
    · exact startMessage_tags _ _
  · exact startMessage_tags _ _

theorem settleContexts_kept (m : Message) (t : Txs) :
    (settleContexts m t).inFlight = t.inFlight ∧ (settleContexts m t).completions = t.completions := by
  unfold settleContexts startMessage
  split
  · split <;> exact ⟨rfl, rfl⟩
  · split <;> exact ⟨rfl, rfl⟩
  · exact ⟨rfl, rfl⟩

/-- The candidate as its selection leaves it (R93). -/
def selected (m : Message) (k : Cls) (s : State) : Message := { m with state := .started (numberFor m k s) m.sent }

theorem findMessage_settleContexts {s : State} {m : Message} {k : Cls} (hinv : ContextInv s)
    (hm : s.txs.queues[k].head? = some m) (hj : ∀ j : Cls, j < k → s.txs.queues[j] = []) :
    findMessage m.tag (settleContexts m s.txs) = some (selected m k s) := by
  have hsettled := settled_settleContexts (t := s.withTxs (settleContexts m s.txs)) hinv hm hj rfl
  have hmem : selected m k s ∈ messages (settleContexts m s.txs) := by
    refine mem_messages.mpr ⟨k, ?_⟩
    have hq : (settleContexts m s.txs).queues[k] = selected m k s :: s.txs.queues[k].tail := hsettled.queue
    rw [hq]
    exact List.mem_cons_self
  exact findMessage_of_mem (by rw [settleContexts_tags]; exact hinv.records.tags) hmem

/-! ### The frame of the next segment (R95 to R97) -/

theorem completionsFull_iff {t : Txs} (h : t.inFlight = none) : completionsFull t = true ↔ 16 ≤ t.completions.length := by
  simp [completionsFull, completionsCounted, h, Config.completionPlaces]

/-- The segment that a request of the candidate carries. -/
theorem segmentOf_selected {s : State} {m : Message} {k : Cls} (hcls : m.cls = k) :
    segmentOf (selected m k s) m.sent =
      ⟨m.destination, k, numberFor m k s, m.sent, lastNext m, m.blocks.getD m.sent []⟩ := by
  subst hcls
  rfl

/-- A request for a segment with the receiver in IDLE: the DATA frame starts (R6, R15, R22). -/
theorem OfferedFrom.data {i : Instr} {p : Phase} {c : Cycle} {s v : State} (h : OfferedFrom i p c s v) {m : Message} {k : Cls}
    (hcls : m.cls = k) (hfind : findMessage m.tag v.txs = some (selected m k s)) (hi : IdleAtStart i s) :
    DataStarted m k p c s (sendRequest (.data m.tag m.sent (lastNext m)) v) := by
  have hins : insertionsFor .data v.fru = ⟨false, s.fru.testCrc⟩ := by
    rw [h.fru, insertionsFor]
    congr 1
    exact Bool.and_false _
  have hused : ({ insertionsUsed .data v.fru with frame := some (ownFrame v.fru.frame) } : Fru) =
      ⟨some ⟨[], true, false, false, false⟩, s.fru.testPattern, false⟩ := by
    rw [h.fru]
    simp [insertionsUsed, ownFrame]
  have hsend : sendRequest (.data m.tag m.sent (lastNext m)) v = startTransmission .data
      (dataBytes (segmentOf (selected m k s) m.sent) v)
      (v.withTxs { v.txs with inFlight := some (.data m.tag m.sent (lastNext m)) }) := by
    rw [sendRequest, if_pos (h.idle.mpr hi)]
    simp only [FrameRequest.inFlight, hfind]
  rw [hsend, segmentOf_selected hcls]
  refine ⟨?_, hused, rfl⟩
  show some (⟨dataFrame v.cfg.ownAddress v.ctr.p v.ctr.c v.ctr.digest _ (insertionsFor .data v.fru), 0, false⟩ :
    Transmission) = _
  rw [h.cfg, h.phase, h.cycle, h.digest, hins]

/-- The request of a candidate that is not unreachable: the contexts are settled, and its frame starts or is withheld. -/
theorem OfferedFrom.segment {i : Instr} {p : Phase} {c : Cycle} {s v : State} (h : OfferedFrom i p c s v)
    (hflight : s.txs.inFlight = none) {m : Message} {k : Cls} (hinv : ContextInv s) (hm : s.txs.queues[k].head? = some m)
    (hj : ∀ j : Cls, j < k → s.txs.queues[j] = []) :
    let held := lastNext m = true ∧ 16 ≤ s.txs.completions.length
    let r := sendRequest (requestFor m (settleContexts m s.txs)) (v.withTxs (settleContexts m s.txs))
    Settled m k s r ∧ (IdleAtStart i s → ¬ held → DataStarted m k p c s r) ∧ (IdleAtStart i s → held → FillStarted p c s r) ∧
      (¬ IdleAtStart i s → Withheld s r) := by
  intro held r
  obtain ⟨hin, hcompletions⟩ := settleContexts_kept m s.txs
  rw [hflight] at hin
  have hv := h.withTxs (settleContexts m s.txs)
  have hheld : (isLast m m.sent && completionsFull (settleContexts m s.txs)) = true ↔ held := by
    rw [Bool.and_eq_true, completionsFull_iff hin, hcompletions]
    rfl
  refine ⟨settled_settleContexts hinv hm hj (sendRequest_txs _ _), fun hi hn => ?_, fun hi hh => ?_, fun hi => ?_⟩
  · have hreq : requestFor m (settleContexts m s.txs) = .data m.tag m.sent (lastNext m) :=
      if_neg (mt hheld.mp hn)
    show DataStarted m k p c s (sendRequest (requestFor m (settleContexts m s.txs)) _)
    rw [hreq]
    exact hv.data (hinv.head_cls hm) (findMessage_settleContexts hinv hm hj) hi
  · have hreq : requestFor m (settleContexts m s.txs) = .fill := if_pos (hheld.mpr hh)
    show FillStarted p c s (sendRequest (requestFor m (settleContexts m s.txs)) _)
    rw [hreq]
    exact hv.fill.1 hi
  · show Withheld s (sendRequest _ (v.withTxs (settleContexts m s.txs)))
    rw [sendRequest_withheld _ (mt hv.idle.mp hi)]
    exact ⟨h.off, h.fru, hin⟩

end Sys2Proof.Machine
end

section
/-! SUPPORT. A message discarded as unreachable: what a phase end does before its selection does not see the Transmit Scheduler, and
the selection begins again (R89, R90). -/

namespace Sys2Proof.Machine

/-! ### Steps that do not see the Transmit Scheduler -/

/-- The state with another Transmit Scheduler, and SUB_REQ at the level it calls for. -/
def swapTxs (x : Txs) (b : Bool) (s : State) : State := (s.withTxs x).withLpt { s.lpt with subReq := b }

/-- A step does the same whatever the Transmit Scheduler holds, beside what becomes of the Transmit Scheduler itself. -/
def TransmitBlind (f : State → State) : Prop := ∀ x b s, ∃ y, f (swapTxs x b s) = swapTxs y b (f s)

theorem TransmitBlind.id : TransmitBlind fun s => s := fun x _ _ => ⟨x, rfl⟩

theorem TransmitBlind.comp {f g : State → State} (hf : TransmitBlind f) (hg : TransmitBlind g) :
    TransmitBlind fun s => g (f s) := by
  intro x b s
  obtain ⟨y, hy⟩ := hf x b s
  obtain ⟨z, hz⟩ := hg y b (f s)
  exact ⟨z, by simp only [hy, hz]⟩

theorem TransmitBlind.ite {f g : State → State} {c : State → Prop} [DecidablePred c] (hf : TransmitBlind f)
    (hg : TransmitBlind g) (hc : ∀ x b s, c (swapTxs x b s) ↔ c s) : TransmitBlind fun s => if c s then f s else g s := by
  intro x b s
  obtain ⟨y, hy⟩ := hf x b s
  obtain ⟨z, hz⟩ := hg x b s
  by_cases h : c s
  · exact ⟨y, by simp only [if_pos ((hc x b s).mpr h), if_pos h, hy]⟩
  · exact ⟨z, by simp only [if_neg (mt (hc x b s).mp h), if_neg h, hz]⟩

theorem TransmitBlind.foldl {α : Type} {f : State → α → State} (hf : ∀ a, TransmitBlind fun s => f s a) (as : List α) :
    TransmitBlind fun s => as.foldl f s := by
  induction as with
  | nil => exact TransmitBlind.id
  | cons a as ih => exact (hf a).comp ih

theorem transmitBlind_withRxu (φ : State → Rxu) (h : ∀ x b s, φ (swapTxs x b s) = φ s) :
    TransmitBlind fun s => s.withRxu (φ s) := fun x b s => ⟨x, by simp only [h]; rfl⟩

theorem transmitBlind_withPmn (φ : State → Pmn) (h : ∀ x b s, φ (swapTxs x b s) = φ s) :
    TransmitBlind fun s => s.withPmn (φ s) := fun x b s => ⟨x, by simp only [h]; rfl⟩

theorem transmitBlind_withFlt (φ : State → Flt) (h : ∀ x b s, φ (swapTxs x b s) = φ s) :
    TransmitBlind fun s => s.withFlt (φ s) := fun x b s => ⟨x, by simp only [h]; rfl⟩

theorem transmitBlind_withCtr (φ : State → Ctr) (h : ∀ x b s, φ (swapTxs x b s) = φ s) :
    TransmitBlind fun s => s.withCtr (φ s) := fun x b s => ⟨x, by simp only [h]; rfl⟩

theorem transmitBlind_driveDlv : TransmitBlind driveDlv := fun x _ _ => ⟨x, rfl⟩

theorem transmitBlind_stoppingReport : TransmitBlind stoppingReport := by
  unfold stoppingReport
  refine TransmitBlind.ite (TransmitBlind.ite (fun x _ _ => ⟨x, rfl⟩) (fun x _ _ => ⟨returnContexts x, rfl⟩) ?_)
    TransmitBlind.id ?_
  · exact fun _ _ _ => Iff.rfl
  · exact fun _ _ _ => Iff.rfl

theorem transmitBlind_raise (o : Occurrence) : TransmitBlind (raise o) := by
  have hrecord := transmitBlind_withFlt (fun s => recorded s.cfg.masks o s.flt) fun _ _ _ => rfl
  intro x b s
  by_cases h : Stops o.kind s
  · rw [raise_stops h, raise_stops (s := swapTxs x b s) h]
    exact (hrecord.comp transmitBlind_stoppingReport) x b s
  · rw [raise_calm h, raise_calm (s := swapTxs x b s) h]
    exact hrecord x b s

theorem transmitBlind_raiseAll (os : List Occurrence) : TransmitBlind (raiseAll os) :=
  TransmitBlind.foldl (f := fun s o => raise o s) transmitBlind_raise os

/-! ### The tasks of a phase end -/

theorem transmitBlind_ageOut (which : Entry → Bool) (p : Phase) (c : Cycle) : TransmitBlind (ageOut which p c) := by
  intro x b s
  exact ((transmitBlind_withRxu (fun s => discardEntries which s.rxu) fun _ _ _ => rfl).comp
    (transmitBlind_raiseAll ((s.rxu.table.filter which).map (agedOccurrence p c)))) x b s

theorem transmitBlind_takeSingle (f : TakenFrame) : TransmitBlind (takeSingle f) :=
  TransmitBlind.ite ((transmitBlind_withRxu _ fun _ _ _ => rfl).comp transmitBlind_driveDlv) (transmitBlind_raise _)
    fun _ _ _ => Iff.rfl

theorem transmitBlind_takeFirst (f : TakenFrame) : TransmitBlind (takeFirst f) :=
  TransmitBlind.ite (transmitBlind_withRxu _ fun _ _ _ => rfl) (transmitBlind_raise _) fun _ _ _ => Iff.rfl

theorem transmitBlind_takeMiddle (f : TakenFrame) (e : Entry) : TransmitBlind (takeMiddle f e) :=
  TransmitBlind.ite (transmitBlind_withRxu _ fun _ _ _ => rfl)
    ((transmitBlind_withRxu _ fun _ _ _ => rfl).comp (transmitBlind_raise _)) fun _ _ _ => Iff.rfl

theorem transmitBlind_takeLast (f : TakenFrame) (e : Entry) : TransmitBlind (takeLast f e) :=
  TransmitBlind.ite ((transmitBlind_withRxu _ fun _ _ _ => rfl).comp transmitBlind_driveDlv)
    ((transmitBlind_withRxu _ fun _ _ _ => rfl).comp (transmitBlind_raise _)) fun _ _ _ => Iff.rfl

theorem transmitBlind_takeContinuation (f : TakenFrame) : TransmitBlind (takeContinuation f) := by
  intro x b s
  have hrxu : (swapTxs x b s).rxu = s.rxu := rfl
  unfold takeContinuation
  rw [hrxu]
  cases findEntry f.sender f.cls s.rxu with
  | none => exact ⟨x, rfl⟩
  | some e =>
    simp only
    split_ifs
    · exact transmitBlind_takeLast f e x b s
    · exact transmitBlind_takeMiddle f e x b s
    · exact ((transmitBlind_withRxu (fun s => discardEntry f.sender f.cls s.rxu) fun _ _ _ => rfl).comp
        (transmitBlind_raise (frameOccurrence .sequence f))) x b s

theorem transmitBlind_replaceEntry (f : TakenFrame) : TransmitBlind (replaceEntry f) := by
  intro x b s
  have hrxu : (swapTxs x b s).rxu = s.rxu := rfl
  unfold replaceEntry
  rw [hrxu]
  cases findEntry f.sender f.cls s.rxu with
  | none => exact ⟨x, rfl⟩
  | some e =>
    exact ((transmitBlind_withRxu (fun s => discardEntry f.sender f.cls s.rxu) fun _ _ _ => rfl).comp
      (transmitBlind_raise (frameOccurrence .sequence f))) x b s

theorem transmitBlind_takeFrame (f : TakenFrame) : TransmitBlind (takeFrame f) := by
  refine TransmitBlind.ite (c := fun _ => f.index = 0) (TransmitBlind.ite (c := fun _ => f.last = true) ?_ ?_ ?_)
    (transmitBlind_takeContinuation f) fun _ _ _ => Iff.rfl
  · exact (transmitBlind_replaceEntry f).comp (transmitBlind_takeSingle f)
  · exact (transmitBlind_replaceEntry f).comp (transmitBlind_takeFirst f)
  · exact fun _ _ _ => Iff.rfl

theorem transmitBlind_rxuBoundary (p : Phase) (c : Cycle) : TransmitBlind (rxuBoundary p c) := by
  intro x b s
  exact (((transmitBlind_withRxu (fun s => raiseAges (quietBoundary s.cfg.quietLimit s.rxu)) fun _ _ _ => rfl).comp
    transmitBlind_driveDlv).comp (transmitBlind_ageOut (fun e => e.age == s.cfg.ageLimit) p c)) x b s

theorem transmitBlind_pmnBoundary (whole : Bool) (p : Phase) (c : Cycle) : TransmitBlind (pmnBoundary whole p c) := by
  intro x b s
  exact ((transmitBlind_withPmn (fun s => evaluateAll s.cfg whole s.pmn) fun _ _ _ => rfl).comp
    (TransmitBlind.foldl (f := peerLoss p c) (fun a => transmitBlind_ageOut (fun e => e.sender == a) p c)
      (lostPeers s.pmn (evaluateAll s.cfg whole s.pmn)))) x b s

theorem transmitBlind_runTask (k : Work) (whole : Bool) (p : Phase) (c : Cycle) (t : Task) :
    TransmitBlind (runTask k whole p c t) := by
  cases t with
  | fault => exact transmitBlind_raiseAll _
  | frame =>
    cases hk : k.taken with
    | none => exact fun x b s => ⟨x, by simp only [runTask, hk]⟩
    | some f =>
      intro x b s
      simp only [runTask, hk]
      exact transmitBlind_takeFrame f x b s
  | aging => exact transmitBlind_rxuBoundary p c
  | presence => exact transmitBlind_pmnBoundary whole p c

theorem transmitBlind_counting (o : Config.FrameEndOrder) (k : Work) : TransmitBlind (counting o k) := by
  intro x b s
  refine ⟨x, ?_⟩
  have hends : endsCycle (swapTxs x b s) = endsCycle s := rfl
  simp only [counting, countAtEnd, hends]
  cases endsCycle s <;> cases o.countFirst <;> rfl

theorem transmitBlind_creditIf (b : Bool) (k : Work) : TransmitBlind (creditIf b k) := by
  cases b
  · exact TransmitBlind.id
  · have he : creditIf true k = fun s => s.withPmn (creditedPmn k s.pmn) := funext fun s => creditHeard_eq k s
    rw [he]
    exact transmitBlind_withPmn _ fun _ _ _ => rfl

theorem transmitBlind_atStart (o : Config.FrameEndOrder) (k : Work) : TransmitBlind (atStart o k) := by
  intro x b s
  exact (((transmitBlind_counting o k).comp (transmitBlind_creditIf o.creditFirst k)).comp
    (TransmitBlind.foldl (f := fun u t => runTask k s.ctr.whole (nextPhase s) (nextCycle s) t u)
      (fun t => transmitBlind_runTask k _ _ _ t) (tasksBefore o (endsCycle s)))) x b s

/-! ### The selection begun again (R90) -/

section

variable {s : State} {m : Message} {k : Cls} (hinv : ContextInv s) (hm : s.txs.queues[k].head? = some m)
include hinv hm

theorem withoutMessage_txs : (withoutMessage m s).txs = depart m .unreachable s.txs := by
  rw [depart, filter_tag hinv.records.tags (head_mem_messages hm)]
  simp [withoutMessage, Message.held]

omit hinv hm in
theorem withoutMessage_eq : withoutMessage m s = swapTxs (withoutMessage m s).txs (withoutMessage m s).lpt.subReq s := rfl

/-- The number of records is one less. -/
theorem length_depart (outcome : SendOutcome) :
    (messages (depart m outcome s.txs)).length + 1 = (messages s.txs).length := by
  have hone := filter_tag hinv.records.tags (head_mem_messages hm)
  have hsplit := List.length_eq_length_filter_add (l := messages s.txs) fun x => x.tag == m.tag
  rw [hone] at hsplit
  rw [messages_depart, hsplit]
  simp [bne, Nat.add_comm]

omit hinv hm in
theorem Unreachable.isStarted (h : Unreachable m s) : m.isStarted = false := by
  simp [Message.isStarted, Message.number, h.2.1]

/-- Without an unreachable candidate the contexts stay in order. -/
theorem ContextInv.withoutMessage (hqueued : m.isStarted = false) (hflight : s.txs.inFlight = none) :
    ContextInv (withoutMessage m s) := by
  have htxs := withoutMessage_txs hinv hm
  have hmessages : messages (Machine.withoutMessage m s).txs = (messages s.txs).filter fun x => x.tag != m.tag := by
    rw [htxs, messages_depart]
  have hqueue : ∀ j : Cls, (Machine.withoutMessage m s).txs.queues[j] = s.txs.queues[j].filter fun x => x.tag != m.tag := by
    intro j; simp [Machine.withoutMessage]
  refine ⟨⟨?_, fun j => ?_, ?_, fun j x hx => ?_⟩, ?_, ?_, ?_⟩
  · rw [TxPoolWhole, htxs, depart_blocks]
    exact hinv.records.pool
  · rw [hqueue]
    exact (List.length_filter_le _ _).trans (hinv.records.queues j)
  · rw [TagsDistinct, hmessages]
    exact hinv.records.tags.sublist (List.filter_sublist.map _)
  · rw [hqueue] at hx
    exact hinv.records.placed j x (List.mem_of_mem_filter hx)
  · obtain ⟨ms, htags, hheads, hsorted, hall, hstack⟩ := hinv.ordered
    refine ⟨ms, htags, fun x hx => ?_, hsorted, fun x hx => ?_, hstack⟩
    · obtain ⟨hhead, hstarted⟩ := hheads x hx
      refine ⟨?_, hstarted⟩
      have hne : x.tag ≠ m.tag := fun he => by
        have hxm := eq_of_tag hinv.records.tags (head_mem_messages hm)
          (mem_messages.mpr ⟨x.cls, List.mem_of_head? hhead⟩) he
        rw [hxm, hqueued] at hstarted
        cases hstarted
      rw [hqueue, (List.cons_head?_tail hhead).symm, List.filter_cons_of_pos (by simpa using hne)]
      rfl
    · rw [hmessages] at hx
      exact hall x (List.mem_of_mem_filter hx)
  · intro tag index last hf
    exact absurd (hflight.symm.trans hf) nofun
  · intro hf
    have hnone : (Machine.withoutMessage m s).txs.inFlight = none := hflight
    rw [hnone] at hf
    cases hf

end

theorem unreachable_iff {m : Message} {v : State} {read : Pmn} {s : State} (hcfg : v.cfg = s.cfg)
    (hread : ∀ a : Addr, v.pmn.peers[a].presence = read.peers[a].presence) :
    unreachable v m = true ↔ Unreachable m (s.withPmn read) := by
  have hlt : m.destination.toNat < 32 ↔ m.destination.toNat ≤ 31 := by omega
  simp only [unreachable, hcfg, hread, Bool.and_eq_true, beq_iff_eq, decide_eq_true_iff, hlt, Unreachable, and_assoc]
  rfl

/-- The selection of an unreachable candidate that finds a completion place is the selection without it. -/
theorem ownPhaseStart_again {s v : State} {m : Message} {k floor : Cls} (hinv : ContextInv s)
    (hm : s.txs.queues[k].head? = some m) (hk : k ≤ floor) (hj : ∀ j : Cls, j < k → s.txs.queues[j] = [])
    (hu : unreachable v m = true) (hroom : completionsFull s.txs = false) (htxs : v.txs = s.txs) (hcfg : v.cfg = s.cfg)
    (hsub : v.lpt.subReq = s.lpt.subReq) :
    ownPhaseStart floor v = ownPhaseStart floor (swapTxs (withoutMessage m s).txs (withoutMessage m s).lpt.subReq v) := by
  have hcandidate : candidate floor v.txs = some m := by rw [htxs]; exact candidate_head hk hm hj
  have hroom' : ¬ completionsFull v.txs = true := by rw [htxs, hroom]; exact nofun
  have hagain : driveSub (v.withTxs (depart m .unreachable v.txs)) =
      swapTxs (withoutMessage m s).txs (withoutMessage m s).lpt.subReq v := by
    rw [driveSub, subNext_eq, htxs, ← withoutMessage_txs hinv hm]
    show (v.withTxs _).withLpt { v.lpt with subReq := subLevel v.cfg.subMode v.lpt.subReq _ } = _
    rw [hcfg, hsub]
    rfl
  have hlength : (messages v.txs).length =
      (messages (swapTxs (withoutMessage m s).txs (withoutMessage m s).lpt.subReq v).txs).length + 1 := by
    show _ = (messages (withoutMessage m s).txs).length + 1
    rw [withoutMessage_txs hinv hm, length_depart hinv hm, htxs]
  have hselect : select ((messages v.txs).length + 1) floor v =
      select (messages v.txs).length floor (swapTxs (withoutMessage m s).txs (withoutMessage m s).lpt.subReq v) := by
    conv_lhs => rw [select]
    simp only [hcandidate, hu, hroom', if_true, Bool.false_eq_true, if_false, hagain]
  rw [ownPhaseStart, ownPhaseStart, hselect, hlength]

end Sys2Proof.Machine
end

section
/-! SUPPORT. An own phase with a candidate, in each of its three answers (R88 to R97). -/

namespace Sys2Proof.Machine

section

variable {s v : State} {m : Message} {k floor : Cls} (htxs : v.txs = s.txs) (hm : s.txs.queues[k].head? = some m)
  (hk : k ≤ floor) (hj : ∀ j : Cls, j < k → s.txs.queues[j] = [])
include htxs hm hk hj

/-- A candidate that is not unreachable: the contexts are settled, and its frame is requested (R92, R95). -/
theorem ownPhaseStart_candidate (hu : unreachable v m = false) :
    ownPhaseStart floor v =
      sendRequest (requestFor m (settleContexts m s.txs)) (v.withTxs (settleContexts m s.txs)) := by
  have hcandidate : candidate floor s.txs = some m := candidate_head hk hm hj
  rw [ownPhaseStart, select]
  simp only [hcandidate, hu, Bool.false_eq_true, if_false, htxs]
  rfl

/-- An unreachable candidate with no completion place: FILL is requested, and everything stands (R90). -/
theorem ownPhaseStart_full (hu : unreachable v m = true) (hfull : completionsFull s.txs = true) :
    ownPhaseStart floor v = sendRequest .fill v := by
  have hcandidate : candidate floor s.txs = some m := candidate_head hk hm hj
  rw [ownPhaseStart, select]
  simp only [hcandidate, hu, if_true, htxs, hfull]

end

/-- With the driver OFF no frame is in flight (R98). -/
theorem ContextInv.inFlight_none {s : State} (h : ContextInv s) (off : s.lif.tx = none) : s.txs.inFlight = none := by
  cases hf : s.txs.inFlight with
  | none => rfl
  | some x =>
    have := (h.onLine (by rw [hf]; rfl)).1
    rw [off] at this
    cases this

theorem Settled.congr {m : Message} {k : Cls} {s t u : State} (h : Settled m k s t) (htxs : u.txs = t.txs) :
    Settled m k s u :=
  ⟨by rw [htxs]; exact h.current, by rw [htxs]; exact h.stack, by rw [htxs]; exact h.queue, by rw [htxs]; exact h.number,
    by rw [htxs]; exact h.others, by rw [htxs]; exact h.rest⟩

theorem DataStarted.congr {m : Message} {k : Cls} {p : Phase} {c : Cycle} {s t u : State} (h : DataStarted m k p c s t)
    (hlif : u.lif = t.lif) (hfru : u.fru = t.fru) (htxs : u.txs = t.txs) : DataStarted m k p c s u :=
  ⟨by rw [hlif]; exact h.tx, by rw [hfru]; exact h.fru, by rw [htxs]; exact h.inFlight⟩

theorem OffersOwn.withoutMessage {e : PhaseEntry} {s : State} (h : OffersOwn e s) (m : Message) :
    OffersOwn e (withoutMessage m s) :=
  ⟨h.mid, h.small, h.timer, h.driver, h.receiver, h.frame, h.station, h.hold, h.entry, h.own⟩

/-- The own phase of a skip expiry inside a cycle (R29). -/
theorem OffersOwn.offeredFrom {e : PhaseEntry} {s : State} (h : OffersOwn e s) :
    OfferedFrom .skipExpiry (advancedCtr s).p (advancedCtr s).c s (s.withCtr (advancedCtr s)) where
  cfg := rfl
  phase := rfl
  cycle := rfl
  digest := rfl
  idle := by simp [IdleAtStart]
  off := h.driver
  fru := by
    show s.fru = _
    rw [← h.frame]

/-- Another Transmit Scheduler at the start of a phase end is another one at its phase start, where the station is in ACTIVE. -/
theorem atStart_swapTxs {o : Config.FrameEndOrder} {k : Work} {u : State} {took : Option Gather} {s0 : State} {p : Phase}
    {c : Cycle} (hk : k.taken = took.map fun f => takenFrame f s0 p c) (x : Txs) (b : Bool)
    (hs : (atStart o k u).stc.station = .active) : atStart o k (swapTxs x b u) = swapTxs x b (atStart o k u) := by
  obtain ⟨y, hy⟩ := transmitBlind_atStart o k x b u
  obtain ⟨os, hr⟩ := reported_atStart o hk (swapTxs x b u)
  have hactive : (atStart o k (swapTxs x b u)).stc.station = .active := by rw [hy]; exact hs
  have htxs : (atStart o k (swapTxs x b u)).txs = x := by
    rw [(hr.active hactive).2.1]
    simp [counting, swapTxs]
  have hyx : y = x := by rw [hy] at htxs; exact htxs
  rw [hy, hyx]

end Sys2Proof.Machine

namespace Sys2Proof.Proofs

open Sys2Proof.Machine

/-- Settles O43: the selection settles the contexts of its candidate, or begins again without it; what comes before it does not see
the Transmit Scheduler. -/
theorem ownPhaseSendsSegment : Obligations.OwnPhaseSendsSegment := by
  refine ⟨fun e m k s hinv hoffers hk hm hj => ?_, fun i n w e m k s hinv hbegins hk hm hj => ?_⟩
  · intro held ctr
    have hflight := hinv.inFlight_none hoffers.driver
    have hv := hoffers.offeredFrom
    have hu : unreachable (s.withCtr ctr) m = true ↔ Unreachable m s := unreachable_iff (s := s) (read := s.pmn) rfl fun _ => rfl
    refine ⟨fun hreach => ?_, fun hunreach hroom => ⟨?_, hoffers.withoutMessage m, ?_⟩, fun hunreach hfull => ?_⟩
    · have hstart := ownPhaseStart_candidate (v := s.withCtr ctr) rfl hm hk hj (Bool.eq_false_iff.mpr (mt hu.mp hreach))
      obtain ⟨hsettled, hdata, hfill, hwithheld⟩ := hv.segment hflight hinv hm hj
      refine ⟨_, hoffers.exec.trans (congrArg _ hstart), hsettled, by simp [ctr], ⟨fun x hx => ?_, by simp⟩,
        sendRequest_lif _ _, fun hi => hdata (.inl hi), fun hi => hfill (.inl hi),
        fun hi => hwithheld fun hi' => hi (hi'.resolve_right nofun)⟩
      cases x with
      | lif | fru | ctr | txs => simp at hx
      | stc | rxu | pmn | flt | lpt | cfg | rstLow | freeCount => simp [Part.Same]
    · have hnot : completionsFull s.txs = false := by
        rw [← Bool.not_eq_true, completionsFull_iff hflight]
        omega
      rw [hoffers.exec, (hoffers.withoutMessage m).exec,
        ownPhaseStart_again (v := s.withCtr (advancedCtr s)) hinv hm hk hj (hu.mpr hunreach) hnot rfl rfl rfl]
      rfl
    · exact hinv.withoutMessage hm hunreach.isStarted hflight
    · refine sendsFill_of_exec hoffers.frame ?_
      rw [hoffers.exec,
        ownPhaseStart_full (v := s.withCtr (advancedCtr s)) rfl hm hk hj (hu.mpr hunreach) ((completionsFull_iff hflight).mpr hfull)]
  · have hflight := hinv.inFlight_none hbegins.ends.off
    obtain ⟨o, l, u, ha⟩ := hbegins.ends.advances
    obtain ⟨os, t, hexec, ht, hr, haligned, hp, hc, hskip, -⟩ := ha.final
    obtain ⟨q, d, htook, -⟩ := ha.took
    obtain ⟨read, hread, hpresence⟩ : ∃ read, (read = s.pmn ∨ read = t.pmn) ∧
        ∀ a : Addr, (atStart o l u).pmn.peers[a].presence = read.peers[a].presence := by
      rcases atStart_presence o l u with h | h
      · exact ⟨s.pmn, .inl rfl, fun a => (h a).trans (ha.presence a)⟩
      · refine ⟨t.pmn, .inr rfl, ?_⟩
        rw [ht]
        exact h _ (phaseStart_pmn _)
    refine ⟨t, read, hexec, hread, haligned, hp, hc, hskip, fun hactive => ?_⟩
    obtain ⟨v, hveq, hv, hvtxs, hoffered, hlif, hfru, htxs⟩ := hbegins.offered ha hr hactive
    have hvcfg : v.cfg = s.cfg := hv.cfg
    have hu : unreachable v m = true ↔ Unreachable m (s.withPmn read) :=
      unreachable_iff hvcfg (by rw [hveq]; exact hpresence)
    refine ⟨fun hreach => ?_, fun hunreach hroom => ⟨?_, ?_⟩, fun hunreach hfull => ?_⟩
    · rw [ownPhaseStart_candidate hvtxs hm hk hj (Bool.eq_false_iff.mpr (mt hu.mp hreach))] at hlif hfru htxs
      obtain ⟨hsettled, hdata, hfill, hwithheld⟩ := hv.segment hflight hinv hm hj
      exact ⟨hsettled.congr htxs, fun hi hn => (hdata hi hn).congr hlif hfru htxs,
        fun hi hh => (hfill hi hh).congr hlif hfru htxs, fun hi => (hwithheld hi).congr hlif hfru htxs⟩
    · have hnot : completionsFull s.txs = false := by
        rw [← Bool.not_eq_true, completionsFull_iff hflight]
        omega
      have hatActive : (atStart o l u).stc.station = .active := by
        rw [← phaseStart_stc]
        exact (hr.active hactive).1
      have hsub : v.lpt.subReq = s.lpt.subReq := by
        rw [hveq]
        show (atStart o l u).lpt.subReq = _
        rw [ha.startState.2.2.2.2.1]
      have hagain := ownPhaseStart_again hinv hm hk hj (hu.mpr hunreach) hnot hvtxs hvcfg hsub
      have hswap := atStart_swapTxs htook (withoutMessage m s).txs (withoutMessage m s).lpt.subReq hatActive
      have hsame : phaseStart (atStart o l (swapTxs (withoutMessage m s).txs (withoutMessage m s).lpt.subReq u)) =
          phaseStart (atStart o l u) := by
        have hswapped := hoffered (swapTxs (withoutMessage m s).txs (withoutMessage m s).lpt.subReq (atStart o l u)) rfl rfl rfl
        rw [hswap, hswapped, hoffered (atStart o l u) rfl rfl rfl, ← hveq, hagain, hveq]
        rfl
      have hrun := ha.runs (withoutMessage m s).txs (withoutMessage m s).lpt
      have hstate : (u.withTxs (withoutMessage m s).txs).withLpt (withoutMessage m s).lpt =
          swapTxs (withoutMessage m s).txs (withoutMessage m s).lpt.subReq u := by
        rw [swapTxs, ha.lpt]
        rfl
      have haligned' : (swapTxs (withoutMessage m s).txs (withoutMessage m s).lpt.subReq u).ctr.aligned = true := ha.aligned
      rw [hstate, phaseEndWith_eq o l haligned', hsame] at hrun
      rw [hexec, ht]
      exact hrun.symm
    · exact hinv.withoutMessage hm (Unreachable.isStarted (s := s.withPmn read) hunreach) hflight
    · rw [ownPhaseStart_full hvtxs hm hk hj (hu.mpr hunreach) ((completionsFull_iff hflight).mpr hfull)] at hlif hfru htxs
      obtain ⟨hstarted, hwithheld⟩ := hv.fill
      refine ⟨?_, fun hi => (hstarted hi).congr hlif hfru htxs,
        fun hi => (hwithheld hi (by rw [hvtxs]; exact hflight)).congr hlif hfru htxs⟩
      rw [htxs, sendRequest_txs, hvtxs]

end Sys2Proof.Proofs
end

section
/-! SUPPORT. The reassembly table over a boundary: its order, the entries that age, and the entries of lost senders (R110, R116 to
R118, R124). -/

namespace Sys2Proof.Machine

/-! ### The order of the table (R110) -/

/-- The table stands by ascending sender and class. -/
def TableSorted (table : List Entry) : Prop := (table.map Entry.rank).Pairwise (· < ·)

theorem rank_eq_iff (e x : Entry) : e.rank = x.rank ↔ e.sender = x.sender ∧ e.cls = x.cls := by
  have he := e.cls.isLt
  have hx := x.cls.isLt
  simp only [Entry.rank, Fin.ext_iff]
  omega

theorem TableSorted.filter {table : List Entry} (h : TableSorted table) (p : Entry → Bool) : TableSorted (table.filter p) :=
  h.sublist (List.filter_sublist.map _)

/-- A change that keeps every key keeps the order. -/
theorem TableSorted.map {table : List Entry} (h : TableSorted table) {g : Entry → Entry} (hg : ∀ e, (g e).rank = e.rank) :
    TableSorted (table.map g) := by
  have he : (table.map g).map Entry.rank = table.map Entry.rank := by
    rw [List.map_map]
    exact List.map_congr_left fun e _ => hg e
  rwa [TableSorted, he]

/-- The head of an ascending table has the lowest key. -/
theorem TableSorted.head_le {table : List Entry} (h : TableSorted table) {e : Entry} (he : table.head? = some e) :
    ∀ x ∈ table, e.rank ≤ x.rank := by
  cases table with
  | nil => cases he
  | cons y ys =>
    obtain rfl : y = e := by simpa using he
    intro x hx
    rcases List.mem_cons.mp hx with rfl | hx
    · exact le_rfl
    · exact (List.rel_of_pairwise_cons h (List.mem_map_of_mem hx)).le

theorem TableSorted.insertEntry {table : List Entry} (h : TableSorted table) (e : Entry)
    (fresh : ∀ x ∈ table, ¬ (x.sender = e.sender ∧ x.cls = e.cls)) : TableSorted (insertEntry e table) :=
  insertEntry_sorted e table h fun x hx hr => fresh x hx ((rank_eq_iff x e).mp hr)

theorem removeEntry_fresh (a : Addr) (k : Cls) (x : Rxu) :
    ∀ e ∈ (removeEntry a k x).table, ¬ (e.sender = a ∧ e.cls = k) := by
  intro e he hk
  have := (List.mem_filter.mp he).2
  simp [Entry.hasKey, hk.1, hk.2] at this

theorem discardEntries_sorted {x : Rxu} (h : TableSorted x.table) (which : Entry → Bool) :
    TableSorted (discardEntries which x).table := h.filter _

theorem replaceEntry_sorted {f : TakenFrame} {s : State} (h : TableSorted s.rxu.table) :
    TableSorted (replaceEntry f s).rxu.table ∧
      ∀ e ∈ (replaceEntry f s).rxu.table, ¬ (e.sender = f.sender ∧ e.cls = f.cls) := by
  unfold replaceEntry
  split
  · next hfind =>
    refine ⟨h, fun e he hk => ?_⟩
    have := List.find?_eq_none.mp hfind e he
    simp [Entry.hasKey, hk.1, hk.2] at this
  · rw [raise_rxu]
    exact ⟨discardEntries_sorted h _, removeEntry_fresh f.sender f.cls s.rxu⟩

theorem takeSingle_sorted {f : TakenFrame} {s : State} (h : TableSorted s.rxu.table) :
    TableSorted (takeSingle f s).rxu.table := by
  unfold takeSingle
  split
  · exact h
  · rw [raise_rxu]; exact h

theorem takeFirst_sorted {f : TakenFrame} {s : State} (h : TableSorted s.rxu.table)
    (fresh : ∀ e ∈ s.rxu.table, ¬ (e.sender = f.sender ∧ e.cls = f.cls)) : TableSorted (takeFirst f s).rxu.table := by
  unfold takeFirst
  split
  · exact h.insertEntry _ fresh
  · rw [raise_rxu]; exact h

theorem takeMiddle_sorted {f : TakenFrame} {e : Entry} {s : State} (h : TableSorted s.rxu.table)
    (hk : e.sender = f.sender ∧ e.cls = f.cls) : TableSorted (takeMiddle f e s).rxu.table := by
  unfold takeMiddle
  split
  · refine TableSorted.insertEntry (h.filter _) _ ?_
    show ∀ x ∈ (removeEntry f.sender f.cls s.rxu).table, ¬ (x.sender = e.sender ∧ x.cls = e.cls)
    rw [hk.1, hk.2]
    exact removeEntry_fresh f.sender f.cls s.rxu
  · rw [raise_rxu]; exact discardEntries_sorted h _

theorem takeLast_sorted {f : TakenFrame} {e : Entry} {s : State} (h : TableSorted s.rxu.table) :
    TableSorted (takeLast f e s).rxu.table := by
  unfold takeLast
  split
  · exact h.filter _
  · rw [raise_rxu]; exact discardEntries_sorted h _

/-- A taken frame keeps the order of the table (log 16). -/
theorem takeFrame_sorted {f : TakenFrame} {s : State} (h : TableSorted s.rxu.table) :
    TableSorted (takeFrame f s).rxu.table := by
  obtain ⟨hsorted, hfresh⟩ := replaceEntry_sorted (f := f) h
  unfold takeFrame
  split
  · split
    · exact takeSingle_sorted hsorted
    · exact takeFirst_sorted hsorted hfresh
  · unfold takeContinuation
    split
    · exact h
    · next e hfind =>
      have hk : e.sender = f.sender ∧ e.cls = f.cls := by
        have := List.find?_some (p := Entry.hasKey _ _) hfind
        simpa [Entry.hasKey] using this
      split
      · split
        · exact takeLast_sorted h
        · exact takeMiddle_sorted h hk
      · rw [raise_rxu]; exact discardEntries_sorted h _

/-! ### Pool blocks of entries that leave (R108) -/

theorem entryBlocks_map {g : Entry → Entry} (hg : ∀ e, (g e).blocks = e.blocks) (l : List Entry) :
    entryBlocks (l.map g) = entryBlocks l := by
  rw [entryBlocks, List.map_map]
  exact congrArg List.sum (List.map_congr_left fun e _ => by simp [hg])

/-- The blocks of those that leave first and of those of the others that leave then are the blocks of all that leave. -/
theorem entryBlocks_filter_or (p q : Entry → Bool) (l : List Entry) :
    entryBlocks (l.filter p) + entryBlocks ((l.filter fun e => !p e).filter q) = entryBlocks (l.filter fun e => p e || q e) := by
  induction l with
  | nil => rfl
  | cons e l ih =>
    simp only [entryBlocks] at ih ⊢
    cases hp : p e <;> cases hq : q e <;> simp [hp, hq] at ih ⊢ <;> omega

theorem discardEntries_discardEntries (p q : Entry → Bool) (x : Rxu) :
    discardEntries q (discardEntries p x) = discardEntries (fun e => p e || q e) x := by
  have htable : (x.table.filter fun e => !p e).filter (fun e => !q e) = x.table.filter fun e => !(p e || q e) := by
    rw [List.filter_filter]
    exact List.filter_congr fun e _ => by cases p e <;> cases q e <;> rfl
  simp only [discardEntries, htable, Nat.add_assoc, entryBlocks_filter_or]

/-! ### Aging (R116, R124) -/

/-- An entry one boundary older. -/
def older (e : Entry) : Entry := { e with age := e.age + 1 }

/-- Aging at the Receive Unit: the entries that reach the age limit leave, the others are one older, and the quiet counter
counts. -/
def agedRxu (limits : Items) (x : Rxu) : Rxu :=
  { x with
    table := (x.table.filter fun e => !decide (e.age + 1 = limits.ageLimit)).map older
    free := x.free + entryBlocks (x.table.filter fun e => decide (e.age + 1 = limits.ageLimit))
    quiet := (quietAfter limits.quietLimit x).1, quietFlag := (quietAfter limits.quietLimit x).2 }

theorem older_filter (p : Nat → Bool) (l : List Entry) :
    (l.map older).filter (fun e => p e.age) = (l.filter fun e => p (e.age + 1)).map older := List.filter_map

theorem rxuBoundary_rxu (p : Phase) (c : Cycle) (s : State) : (rxuBoundary p c s).rxu = agedRxu s.cfg s.rxu := by
  have hbeq : ∀ n : Nat, (n == s.cfg.ageLimit) = decide (n = s.cfg.ageLimit) := fun n => by
    rw [Bool.eq_iff_iff]; simp
  have hstay := older_filter (fun n => !decide (n = s.cfg.ageLimit)) s.rxu.table
  have hgone := older_filter (fun n => decide (n = s.cfg.ageLimit)) s.rxu.table
  rw [rxuBoundary, ageOut_rxu]
  simp only [driveDlv_rxu, State.withRxu_rxu, quietBoundary_eq, discardEntries, raiseAges, agedRxu, hbeq]
  rw [show (s.rxu.table.map fun e => ({ e with age := e.age + 1 } : Entry)) = s.rxu.table.map older from rfl, hstay, hgone,
    entryBlocks_map (g := older) fun _ => rfl]

/-! ### The notices of peer loss (R118, R139) -/

theorem peerLosses_rxu (p : Phase) (c : Cycle) (as : List Addr) (s : State) :
    (as.foldl (peerLoss p c) s).rxu = discardEntries (fun e => decide (e.sender ∈ as)) s.rxu := by
  induction as generalizing s with
  | nil => simp [discardEntries, entryBlocks]
  | cons a as ih =>
    rw [List.foldl_cons, ih, peerLoss, ageOut_rxu, discardEntries_discardEntries]
    congr 1
    funext e
    by_cases h : e.sender = a <;> simp [h]

theorem mem_lossOccurrences (p : Phase) (c : Cycle) (as : List Addr) (x : Rxu) (o : Occurrence) :
    o ∈ lossOccurrences p c as x ↔ ∃ e ∈ x.table, e.sender ∈ as ∧ o = agedOccurrence p c e := by
  induction as generalizing x with
  | nil => simp [lossOccurrences]
  | cons a as ih =>
    simp only [lossOccurrences, List.mem_append, ih, List.mem_map, List.mem_filter, discardEntries, beq_iff_eq,
      Bool.not_eq_true', beq_eq_false_iff_ne]
    constructor
    · rintro (⟨e, ⟨he, hs⟩, rfl⟩ | ⟨e, ⟨he, -⟩, hs, rfl⟩)
      · exact ⟨e, he, by simp [hs], rfl⟩
      · exact ⟨e, he, List.mem_cons_of_mem _ hs, rfl⟩
    · rintro ⟨e, he, hs, rfl⟩
      by_cases ha : e.sender = a
      · exact .inl ⟨e, ⟨he, ha⟩, rfl⟩
      · exact .inr ⟨e, ⟨he, ha⟩, (List.mem_cons.mp hs).resolve_left ha, rfl⟩

/-- In an ascending table the entries of one sender stand before those of higher senders. -/
theorem TableSorted.filter_cons {table : List Entry} (h : TableSorted table) {a : Addr} {as : List Addr} (ha : ∀ b ∈ as, a < b) :
    table.filter (fun e => decide (e.sender ∈ a :: as)) =
      table.filter (fun e => e.sender == a) ++ table.filter (fun e => decide (e.sender ∈ as)) := by
  induction table with
  | nil => rfl
  | cons e es ih =>
    have hes : TableSorted es := List.Pairwise.of_cons h
    by_cases hea : e.sender = a
    · have hnot : e.sender ∉ as := fun hm => absurd (ha _ hm) (by simp [hea])
      rw [List.filter_cons_of_pos (by simp [hea]), List.filter_cons_of_pos (by simp [hea]),
        List.filter_cons_of_neg (by simpa using hnot), ih hes, List.cons_append]
    · by_cases hin : e.sender ∈ as
      · have hlater : es.filter (fun x => x.sender == a) = [] := by
          rw [List.filter_eq_nil_iff]
          intro x hx hxa
          have hlt : e.rank < x.rank := List.rel_of_pairwise_cons h (List.mem_map_of_mem hx)
          have hlow := ha _ hin
          have hxa' : x.sender = a := by simpa using hxa
          have := x.cls.isLt
          simp only [Entry.rank, hxa', Fin.lt_def] at hlt hlow
          omega
        have hih := ih hes
        rw [hlater, List.nil_append] at hih
        rw [List.filter_cons_of_pos (by simp [hin]), List.filter_cons_of_neg (by simpa using hea),
          List.filter_cons_of_pos (by simpa using hin), hlater, hih, List.nil_append]
      · rw [List.filter_cons_of_neg (by simp [hea, hin]), List.filter_cons_of_neg (by simpa using hea),
          List.filter_cons_of_neg (by simpa using hin), ih hes]

theorem lossOccurrences_sorted (p : Phase) (c : Cycle) {as : List Addr} (has : as.Pairwise (· < ·)) {x : Rxu}
    (h : TableSorted x.table) :
    lossOccurrences p c as x = (x.table.filter fun e => decide (e.sender ∈ as)).map (agedOccurrence p c) := by
  induction as generalizing x with
  | nil => simp [lossOccurrences]
  | cons a as ih =>
    obtain ⟨ha, has⟩ := List.pairwise_cons.mp has
    have hrest : (x.table.filter fun e => !(e.sender == a)).filter (fun e => decide (e.sender ∈ as)) =
        x.table.filter fun e => decide (e.sender ∈ as) := by
      rw [List.filter_filter]
      refine List.filter_congr fun e _ => ?_
      by_cases hin : e.sender ∈ as
      · have hne : e.sender ≠ a := fun he => absurd (ha _ hin) (by simp [he])
        simp [hin, hne]
      · simp [hin]
    rw [lossOccurrences, ih has (discardEntries_sorted h _), h.filter_cons ha, List.map_append]
    simp only [discardEntries, hrest]

theorem lostPeers_sorted (x y : Pmn) : (lostPeers x y).Pairwise (· < ·) := (List.pairwise_lt_finRange 32).filter _

theorem mem_lostPeers {x y : Pmn} {a : Addr} :
    a ∈ lostPeers x y ↔ x.peers[a].presence ≠ .absent ∧ y.peers[a].presence = .absent := by
  simp [lostPeers]

theorem pmnBoundary_rxu (whole : Bool) (p : Phase) (c : Cycle) (s : State) : (pmnBoundary whole p c s).rxu =
    discardEntries (fun e => decide (e.sender ∈ lostPeers s.pmn (evaluateAll s.cfg whole s.pmn))) s.rxu :=
  peerLosses_rxu p c _ _

end Sys2Proof.Machine
end

section
/-! SUPPORT. A cycle boundary as a run of its events, in every order of the blocks (R116 to R118, R125, R150; log 6). -/

namespace Sys2Proof.Machine

/-! ### The events of a boundary -/

/-- The event that a task is at the Receive Unit. -/
def Task.event : Task → BoundaryEvent
  | .fault => .fault
  | .frame => .frame
  | .aging => .aging
  | .presence => .loss

/-- One event of a boundary as the model makes it, from the Receive Unit and the occurrences so far; `lost` are the senders that
move into ABSENT. -/
def RanStep (w : Ending) (s : State) (lost : Addr → Bool) (event : BoundaryEvent) (x y : Rxu × List FirstFault) : Prop :=
  match event with
  | .fault => y = (x.1, x.2 ++ w.fault.toList)
  | .frame => ∃ os, FrameTaken w.took s (Fin.ofNat 64 (s.ctr.table.length - 1)) w.cycle x.1 y.1 os ∧ y.2 = x.2 ++ os ∧
      (TableSorted x.1.table → TableSorted y.1.table)
  | .aging => y = (agedRxu s.cfg x.1,
      x.2 ++ (x.1.table.filter fun e => decide (e.age + 1 = s.cfg.ageLimit)).map (agedFault w.cycle))
  | .loss => y.1 = discardEntries (fun e => lost e.sender) x.1 ∧
      ∃ os, y.2 = x.2 ++ os ∧ (∀ o, o ∈ os ↔ ∃ e ∈ x.1.table, lost e.sender = true ∧ o = agedFault w.cycle e) ∧
        (TableSorted x.1.table → os = (x.1.table.filter fun e => lost e.sender).map (agedFault w.cycle))

theorem withoutEntries_eq {gone : Entry → Prop} [DecidablePred gone] {p : Entry → Bool} (h : ∀ e, p e = true ↔ gone e)
    (x : Rxu) : withoutEntries gone x = discardEntries p x := by
  rw [← discardEntries_eq]
  congr 1
  funext e
  rw [Bool.eq_iff_iff, decide_eq_true_iff, h]

theorem filter_eq {gone : Entry → Prop} [DecidablePred gone] {p : Entry → Bool} (h : ∀ e, p e = true ↔ gone e)
    (l : List Entry) : l.filter (fun e => decide (gone e)) = l.filter p :=
  List.filter_congr fun e _ => by rw [Bool.eq_iff_iff, decide_eq_true_iff, h]

/-- On an ascending table the events are those of the statements, and they keep it ascending (log 16). -/
theorem RanStep.boundaryStep {w : Ending} {s t : State} {lost : Addr → Bool} {event : BoundaryEvent}
    {x y : Rxu × List FirstFault} (h : RanStep w s lost event x y) (hlost : ∀ a, lost a = true ↔ Lost s t a)
    (hx : TableSorted x.1.table) : BoundaryStep w s t event x y ∧ TableSorted y.1.table := by
  obtain ⟨x, acc⟩ := x
  obtain ⟨y, acc'⟩ := y
  have hages : ∀ e, decide (e.age + 1 = s.cfg.ageLimit) = true ↔ AgesOut s e := fun e => decide_eq_true_iff
  cases event with
  | fault =>
    obtain ⟨rfl, rfl⟩ := Prod.mk.inj h
    exact ⟨rfl, hx⟩
  | frame =>
    obtain ⟨os, htaken, hos, hsorted⟩ := h
    refine ⟨?_, hsorted hx⟩
    unfold BoundaryStep
    unfold FrameTaken at htaken
    cases hw : w.took with
    | none =>
      rw [hw] at htaken
      obtain ⟨hrxu, hnil⟩ := htaken
      simp only at hrxu hos ⊢
      rw [hrxu, hos, hnil, List.append_nil]
    | some f =>
      rw [hw] at htaken
      obtain ⟨kinds, hhandled, hkinds⟩ := htaken
      exact ⟨kinds, hhandled, hsorted hx, by rw [hos, hkinds]⟩
  | aging =>
    obtain ⟨rfl, rfl⟩ := Prod.mk.inj h
    refine ⟨?_, (hx.filter _).map fun _ => rfl⟩
    unfold BoundaryStep
    simp only [withoutEntries_eq hages]
    rfl
  | loss =>
    obtain ⟨hrxu, os, hos, -, hsorted⟩ := h
    have hgone : ∀ e : Entry, lost e.sender = true ↔ Lost s t e.sender := fun e => hlost e.sender
    simp only at hrxu hos hsorted
    rw [hsorted hx] at hos
    refine ⟨?_, by rw [hrxu]; exact discardEntries_sorted hx _⟩
    unfold BoundaryStep
    simp only [withoutEntries_eq hgone, hrxu, hos]
    rw [filter_eq hgone]

theorem Steps.append {α β : Type} {step : β → α → α → Prop} {bs bs' : List β} {x y z : α} (h : Steps step bs x y)
    (h' : Steps step bs' y z) : Steps step (bs ++ bs') x z := by
  induction bs generalizing x with
  | nil =>
    have hy : y = x := h
    rw [List.nil_append, ← hy]
    exact h'
  | cons b bs ih =>
    obtain ⟨u, hu, hrest⟩ := h
    exact ⟨u, hu, ih hrest⟩

/-- The run of a boundary on an ascending table, in the words of the statements. -/
theorem steps_boundaryStep {w : Ending} {s t : State} {lost : Addr → Bool} {order : List BoundaryEvent}
    {x y : Rxu × List FirstFault} (h : Steps (RanStep w s lost) order x y) (hlost : ∀ a, lost a = true ↔ Lost s t a)
    (hx : TableSorted x.1.table) : Steps (BoundaryStep w s t) order x y := by
  induction order generalizing x with
  | nil => exact h
  | cons event order ih =>
    obtain ⟨z, hz, hrest⟩ := h
    obtain ⟨hstep, hsorted⟩ := hz.boundaryStep hlost hx
    exact ⟨z, hstep, ih hrest hsorted⟩

/-! ### The tasks of a boundary -/

section

variable {w : Ending} {s : State} {k : Work} {before : Pmn}

/-- The senders that the evaluation of these records moves into ABSENT (R139). -/
def lostSenders (cfg : Items) (whole : Bool) (before : Pmn) (a : Addr) : Bool :=
  decide (a ∈ lostPeers before (evaluateAll cfg whole before))

theorem pmnBoundary_pmn (whole : Bool) (p : Phase) (c : Cycle) (s : State) :
    (pmnBoundary whole p c s).pmn = evaluateAll s.cfg whole s.pmn := by
  have hfold : ∀ (as : List Addr) (u : State), (as.foldl (peerLoss p c) u).pmn = u.pmn := by
    intro as
    induction as with
    | nil => exact fun _ => rfl
    | cons a as ih =>
      intro u
      rw [List.foldl_cons, ih]
      simp [peerLoss]
  exact hfold _ _

/-- The presence evaluation is the notices of peer loss (R139). -/
theorem ran_presence (cycle : w.cycle + 1 = c) (x : State) (hcfg : x.cfg = s.cfg) (hpmn : x.pmn = before) :
    ∃ os, Reported os x (pmnBoundary w.whole 0 c x) ∧
      (∀ o ∈ os, o.kind = .aged) ∧
      ∀ acc, RanStep w s (lostSenders s.cfg w.whole before) .loss (x.rxu, acc) ((pmnBoundary w.whole 0 c x).rxu, acc ++ os) := by
  subst cycle
  have hmem := mem_lossOccurrences 0 (w.cycle + 1) (lostPeers x.pmn (evaluateAll x.cfg w.whole x.pmn)) x.rxu
  refine ⟨_, reported_pmnBoundary w.whole 0 (w.cycle + 1) x, fun o ho => ?_, fun acc => ⟨?_, _, rfl, fun o => ?_, fun hsorted => ?_⟩⟩
  · obtain ⟨e, -, -, rfl⟩ := (hmem o).mp ho
    rfl
  · rw [pmnBoundary_rxu, hcfg, hpmn]
    rfl
  · rw [hmem, hcfg, hpmn]
    simp only [lostSenders, decide_eq_true_iff]
    rfl
  · rw [lossOccurrences_sorted 0 (w.cycle + 1) (lostPeers_sorted _ _) hsorted, hcfg, hpmn]
    rfl

theorem ran_runTask {n : Phase} (hn : n.val + 1 = s.ctr.table.length) (hfault : k.fault = w.fault)
    (htook : k.taken = w.took.map fun f => takenFrame f s n w.cycle) (t : Task) (x : State) (hcfg : x.cfg = s.cfg)
    (hpmn : t = .presence → x.pmn = before) :
    ∃ os, Reported os x (runTask k w.whole 0 (w.cycle + 1) t x) ∧
      ∀ acc, RanStep w s (lostSenders s.cfg w.whole before) t.event (x.rxu, acc)
        ((runTask k w.whole 0 (w.cycle + 1) t x).rxu, acc ++ os) := by
  have hphase : (Fin.ofNat 64 (s.ctr.table.length - 1) : Phase) = n := by
    rw [← hn]
    exact Fin.ext (Nat.mod_eq_of_lt n.isLt)
  cases t with
  | fault =>
    refine ⟨k.fault.toList, reported_raiseAll _ _, fun acc => ?_⟩
    show (_, _) = (_, _)
    rw [← hfault]
    simp [runTask]
  | frame =>
    obtain ⟨os, htaken, hreported⟩ := reported_frame htook w.whole 0 (w.cycle + 1) x
    refine ⟨os, hreported, fun acc => ⟨os, by rw [hphase]; exact htaken, rfl, fun hsorted => ?_⟩⟩
    show TableSorted (runTask k w.whole 0 (w.cycle + 1) .frame x).rxu.table
    cases hk : k.taken with
    | none => simpa only [runTask, hk] using hsorted
    | some g => simpa only [runTask, hk] using takeFrame_sorted hsorted
  | aging =>
    refine ⟨_, reported_rxuBoundary 0 (w.cycle + 1) x, fun acc => ?_⟩
    have hgone := older_filter (fun n => n == x.cfg.ageLimit) x.rxu.table
    have hold : (raiseAges x.rxu).table = x.rxu.table.map older := rfl
    show ((rxuBoundary 0 (w.cycle + 1) x).rxu, _) = (_, _)
    rw [rxuBoundary_rxu, hold, hgone, List.map_map, hcfg]
    rfl
  | presence =>
    obtain ⟨os, hreported, -, hran⟩ := ran_presence (w := w) (c := w.cycle + 1) rfl x hcfg (hpmn rfl)
    exact ⟨os, hreported, hran⟩

/-- The tasks before the phase start. -/
theorem ran_runTasks {n : Phase} (hn : n.val + 1 = s.ctr.table.length) (hfault : k.fault = w.fault)
    (htook : k.taken = w.took.map fun f => takenFrame f s n w.cycle) {ts : List Task} (hts : ts.Nodup) (x : State)
    (hcfg : x.cfg = s.cfg) (hpmn : Task.presence ∈ ts → x.pmn = before) (acc : List Occurrence) :
    ∃ os, Reported os x (runTasks k w.whole 0 (w.cycle + 1) ts x) ∧
      Steps (RanStep w s (lostSenders s.cfg w.whole before)) (ts.map Task.event) (x.rxu, acc)
        ((runTasks k w.whole 0 (w.cycle + 1) ts x).rxu, acc ++ os) := by
  induction ts generalizing x acc with
  | nil => exact ⟨[], Reported.refl x, by simp [Steps, runTasks]⟩
  | cons t ts ih =>
    obtain ⟨hnot, hts⟩ := List.nodup_cons.mp hts
    obtain ⟨os, hreported, hran⟩ := ran_runTask hn hfault htook t x hcfg fun ht => hpmn (by simp [ht])
    obtain ⟨os', hreported', hran'⟩ := ih hts (runTask k w.whole 0 (w.cycle + 1) t x) (hreported.cfg.trans hcfg)
      (fun hin => by
        have hne : t ≠ .presence := fun ht => hnot (by rw [ht]; exact hin)
        rw [runTask_pmn hne]
        exact hpmn (List.mem_cons_of_mem _ hin)) (acc ++ os)
    exact ⟨os ++ os', hreported.trans hreported', _, hran acc, by rw [← List.append_assoc]; exact hran'⟩

/-- The Peer Monitor after the tasks before the phase start (R136). -/
theorem runTasks_presence {whole : Bool} {p : Phase} {c : Cycle} {ts : List Task} (hts : ts.Nodup)
    (hmem : Task.presence ∈ ts) (x : State) (taken : ∀ g, k.taken = some g → ∃ f s0 p c, g = takenFrame f s0 p c) :
    (runTasks k whole p c ts x).pmn = evaluateAll x.cfg whole x.pmn := by
  induction ts generalizing x with
  | nil => cases hmem
  | cons t ts ih =>
    obtain ⟨hnot, hts⟩ := List.nodup_cons.mp hts
    have hcons : runTasks k whole p c (t :: ts) x = runTasks k whole p c ts (runTask k whole p c t x) := rfl
    rw [hcons]
    by_cases ht : t = .presence
    · subst ht
      rw [runTasks_pmn hnot]
      exact pmnBoundary_pmn whole p c x
    · rw [ih hts ((List.mem_cons.mp hmem).resolve_left (Ne.symm ht)), runTask_pmn ht]
      obtain ⟨os, h⟩ := reported_runTask taken whole p c t x
      rw [h.cfg]

end

end Sys2Proof.Machine
end

section
/-! SUPPORT. A cycle boundary with no frame taken: what has left the reassembly table and what has been reported after each of its
events, in every order (R116, R118, R124, R150). -/

namespace Sys2Proof.Machine

/-- The entries that have left, once the aging (`a`) and the notices of peer loss (`l`) have come. -/
def leftAt (s : State) (lost : Addr → Bool) (a l : Bool) (e : Entry) : Bool :=
  (a && decide (e.age + 1 = s.cfg.ageLimit)) || (l && lost e.sender)

/-- An entry that stays, once the aging has come. -/
def agedEntry (a : Bool) (e : Entry) : Entry := if a then older e else e

@[simp] theorem agedEntry_sender (a : Bool) (e : Entry) : (agedEntry a e).sender = e.sender := by cases a <;> rfl
@[simp] theorem agedEntry_blocks (a : Bool) (e : Entry) : (agedEntry a e).blocks = e.blocks := by cases a <;> rfl
@[simp] theorem agedEntry_rank (a : Bool) (e : Entry) : (agedEntry a e).rank = e.rank := by cases a <;> rfl
@[simp] theorem agedFault_agedEntry (c : Cycle) (a : Bool) (e : Entry) : agedFault c (agedEntry a e) = agedFault c e := by
  cases a <;> rfl

theorem agedEntry_false : agedEntry false = id := rfl

/-- The first occurrence that no mask holds back. -/
def firstReported (masks : KindSet) (os : List FirstFault) : Option FirstFault := os.find? fun o => !hasKind masks o.kind

/-- Where the boundary stands after some of its events, with no frame taken: whether the frame's own fault (`f`), the aging (`a`)
and the notices of peer loss (`l`) have come. -/
structure AgedState (w : Ending) (s : State) (lost : Addr → Bool) (buf : List Byte) (f a l : Bool)
    (x : Rxu × List FirstFault) : Prop where
  table : x.1.table = (s.rxu.table.filter fun e => !leftAt s lost a l e).map (agedEntry a)
  free : x.1.free = s.rxu.free + entryBlocks (s.rxu.table.filter (leftAt s lost a l))
  segBuf : x.1.segBuf = buf
  delivery : x.1.delivery = s.rxu.delivery
  quiet : (x.1.quiet, x.1.quietFlag) =
    if a then quietAfter s.cfg.quietLimit s.rxu else (s.rxu.quiet, s.rxu.quietFlag)
  mem : ∀ o, o ∈ x.2 ↔ (f = true ∧ w.fault = some o) ∨
    ∃ e ∈ s.rxu.table, leftAt s lost a l e = true ∧ o = agedFault w.cycle e
  first : ∀ r, firstReported s.cfg.masks x.2 = some r → w.fault = some r ∨
    ∃ e ∈ s.rxu.table, leftAt s lost a l e = true ∧ r = agedFault w.cycle e ∧
      (TableSorted s.rxu.table → FirstOf (AgesOut s) s e ∨ FirstOf (fun e => lost e.sender = true) s e)

theorem firstReported_unmasked {masks : KindSet} {os : List FirstFault} {r : FirstFault}
    (h : firstReported masks os = some r) : hasKind masks r.kind = false := by
  simpa using List.find?_some h

theorem firstReported_append {masks : KindSet} {os os' : List FirstFault} {r : FirstFault}
    (h : firstReported masks (os ++ os') = some r) :
    firstReported masks os = some r ∨ ((∀ o ∈ os, hasKind masks o.kind = true) ∧ firstReported masks os' = some r) := by
  unfold firstReported at h ⊢
  rw [List.find?_append] at h
  cases ho : os.find? fun o => !hasKind masks o.kind with
  | some x => rw [ho] at h; exact .inl h
  | none =>
    rw [ho] at h
    exact .inr ⟨fun o hmem => by simpa using List.find?_eq_none.mp ho o hmem, h⟩

/-- The first of a run of AGED is that of the first entry. -/
theorem firstReported_aged {masks : KindSet} {c : Cycle} {l : List Entry} {r : FirstFault}
    (h : firstReported masks (l.map (agedFault c)) = some r) : ∃ e, l.head? = some e ∧ r = agedFault c e := by
  cases l with
  | nil => cases h
  | cons e es =>
    refine ⟨e, rfl, ?_⟩
    have hr := firstReported_unmasked h
    have hkind : r.kind = .aged := by
      obtain ⟨x, -, rfl⟩ := List.mem_map.mp (List.mem_of_find?_eq_some h)
      rfl
    have hhead : firstReported masks ((e :: es).map (agedFault c)) = some (agedFault c e) :=
      List.find?_cons_of_pos (by rw [show (agedFault c e).kind = r.kind from hkind.symm, hr]; rfl)
    exact Option.some.inj (h.symm.trans hhead)

section

variable {w : Ending} {s : State} {lost : Addr → Bool} {buf : List Byte} {f a l : Bool} {x y : Rxu × List FirstFault}

theorem AgedState.fault (h : AgedState w s lost buf f a l x) (hstep : RanStep w s lost .fault x y) :
    AgedState w s lost buf true a l y := by
  have hy : y = (x.1, x.2 ++ w.fault.toList) := hstep
  subst hy
  refine ⟨h.table, h.free, h.segBuf, h.delivery, h.quiet, fun o => ?_, fun r hr => ?_⟩
  · simp only [List.mem_append, h.mem, Option.mem_toList]
    constructor
    · rintro ((⟨-, hf⟩ | he) | hf)
      · exact .inl ⟨trivial, hf⟩
      · exact .inr he
      · exact .inl ⟨trivial, hf⟩
    · rintro (⟨-, hf⟩ | he)
      · exact .inr hf
      · exact .inl (.inr he)
  · rcases firstReported_append hr with hr | ⟨-, hr⟩
    · exact h.first r hr
    · exact .inl (by simpa using List.mem_of_find?_eq_some hr)

theorem AgedState.frame (h : AgedState w s lost buf f a l x) (htook : w.took = none) (hstep : RanStep w s lost .frame x y) :
    AgedState w s lost buf f a l y := by
  obtain ⟨os, htaken, hos, -⟩ := hstep
  rw [htook] at htaken
  obtain ⟨hrxu, hnil⟩ := htaken
  have hy : y = x := Prod.ext hrxu (by rw [hos, hnil, List.append_nil])
  rwa [hy]

/-- Before the aging every entry that has not left stands as it was. -/
theorem AgedState.table_unaged (h : AgedState w s lost buf f false l x) :
    x.1.table = s.rxu.table.filter fun e => !(l && lost e.sender) := by
  rw [h.table, agedEntry_false, List.map_id]
  rfl

/-- What leaves stays away. -/
theorem leftAt_true_left {s : State} {lost : Addr → Bool} {l : Bool} {e : Entry} (h : leftAt s lost false l e = true) :
    leftAt s lost true l e = true := by
  simp only [leftAt, Bool.false_and, Bool.false_or] at h
  simp [leftAt, h]

/-- Where AGED is unmasked and nothing unmasked has been reported, no entry has left. -/
theorem AgedState.none_left (h : AgedState w s lost buf f a l x) (hunmasked : hasKind s.cfg.masks .aged = false)
    (hnone : ∀ o ∈ x.2, hasKind s.cfg.masks o.kind = true) : ∀ e ∈ s.rxu.table, leftAt s lost a l e = false := by
  intro e he
  rw [← Bool.not_eq_true]
  intro hleft
  have := hnone _ ((h.mem _).mpr (.inr ⟨e, he, hleft, rfl⟩))
  rw [show (agedFault w.cycle e).kind = .aged from rfl, hunmasked] at this
  cases this

theorem AgedState.aging (h : AgedState w s lost buf f false l x) (hstep : RanStep w s lost .aging x y) :
    AgedState w s lost buf f true l y := by
  have htable := h.table_unaged
  have hy : y = (agedRxu s.cfg x.1,
    x.2 ++ (x.1.table.filter fun e => decide (e.age + 1 = s.cfg.ageLimit)).map (agedFault w.cycle)) := hstep
  subst hy
  refine ⟨?_, ?_, h.segBuf, h.delivery, ?_, fun o => ?_, fun r hr => ?_⟩
  · show (x.1.table.filter _).map older = _
    rw [htable, List.filter_filter]
    refine congrArg (List.map older) (List.filter_congr fun e _ => ?_)
    simp [leftAt]
  · show x.1.free + _ = _
    rw [h.free, htable, Nat.add_assoc]
    congr 1
    refine (entryBlocks_filter_or (fun e => l && lost e.sender) _ s.rxu.table).trans (congrArg entryBlocks ?_)
    refine List.filter_congr fun e _ => ?_
    simp [leftAt, Bool.or_comm]
  · have hq := h.quiet
    rw [if_neg (by simp)] at hq
    obtain ⟨hquiet, hflag⟩ := Prod.mk.inj hq
    show ((quietAfter s.cfg.quietLimit x.1).1, (quietAfter s.cfg.quietLimit x.1).2) = _
    simp only [quietAfter, hquiet, hflag, h.delivery, if_true]
  · simp only [List.mem_append, h.mem, List.mem_map, htable, List.mem_filter, leftAt, Bool.false_and, Bool.false_or,
      Bool.true_and, Bool.or_eq_true, Bool.not_eq_true', decide_eq_true_iff]
    constructor
    · rintro ((hf | ⟨e, he, hl, rfl⟩) | ⟨e, ⟨⟨he, -⟩, hage⟩, rfl⟩)
      · exact .inl hf
      · exact .inr ⟨e, he, .inr hl, rfl⟩
      · exact .inr ⟨e, he, .inl hage, rfl⟩
    · rintro (hf | ⟨e, he, hleft, rfl⟩)
      · exact .inl (.inl hf)
      · cases hl : l && lost e.sender with
        | true => exact .inl (.inr ⟨e, he, hl, rfl⟩)
        | false => exact .inr ⟨e, ⟨⟨he, hl⟩, hleft.resolve_right (by simp [hl])⟩, rfl⟩
  · rcases firstReported_append hr with hr | ⟨hnone, hr⟩
    · rcases h.first r hr with hf | ⟨e, he, hleft, hrest⟩
      · exact .inl hf
      · exact .inr ⟨e, he, leftAt_true_left hleft, hrest⟩
    · obtain ⟨e, hhead, rfl⟩ := firstReported_aged hr
      have hall := h.none_left (firstReported_unmasked hr) hnone
      have hsame : x.1.table = s.rxu.table := by
        rw [htable]
        exact List.filter_eq_self.mpr fun e he => by
          have hstays := hall e he
          simp only [leftAt, Bool.false_and, Bool.false_or] at hstays
          rw [hstays]
          rfl
      rw [hsame] at hhead
      obtain ⟨he, hage⟩ := List.mem_filter.mp (List.mem_of_head? hhead)
      have hage' : AgesOut s e := of_decide_eq_true hage
      refine .inr ⟨e, he, by simp [leftAt, hage], rfl, fun hsorted => .inl ⟨hage', fun z hz hz' => ?_⟩⟩
      exact (hsorted.filter _).head_le hhead z (List.mem_filter.mpr ⟨hz, decide_eq_true hz'⟩)

theorem AgedState.loss (h : AgedState w s lost buf f a false x) (hstep : RanStep w s lost .loss x y) :
    AgedState w s lost buf f a true y := by
  obtain ⟨hrxu, os, hos, hmem, hsorted⟩ := hstep
  have hfilter : ∀ p : Entry → Bool, (∀ e, p (agedEntry a e) = p e) → x.1.table.filter p =
      ((s.rxu.table.filter fun e => !leftAt s lost a false e).filter p).map (agedEntry a) := fun p hp => by
    rw [h.table, List.filter_map]
    exact congrArg (List.map _) (List.filter_congr fun e _ => hp e)
  have hleft : ∀ e, leftAt s lost a true e = (leftAt s lost a false e || lost e.sender) := fun e => by simp [leftAt]
  refine ⟨?_, ?_, ?_, ?_, ?_, fun o => ?_, fun r hr => ?_⟩
  · rw [hrxu]
    show x.1.table.filter (fun e => !lost e.sender) = _
    rw [hfilter _ fun e => by simp, List.filter_filter]
    refine congrArg (List.map _) (List.filter_congr fun e _ => ?_)
    simp [hleft, Bool.and_comm]
  · rw [hrxu]
    show x.1.free + entryBlocks (x.1.table.filter fun e => lost e.sender) = _
    rw [h.free, hfilter _ fun e => by simp, entryBlocks_map fun e => by simp, Nat.add_assoc, entryBlocks_filter_or,
      show leftAt s lost a true = fun e => leftAt s lost a false e || lost e.sender from funext hleft]
  · rw [hrxu]; exact h.segBuf
  · rw [hrxu]; exact h.delivery
  · rw [hrxu]; exact h.quiet
  · have htable : ∀ e', e' ∈ x.1.table ↔ ∃ e ∈ s.rxu.table, leftAt s lost a false e = false ∧ agedEntry a e = e' := by
      intro e'
      simp [h.table, and_assoc]
    simp only [hos, List.mem_append, h.mem, hmem, htable, hleft, Bool.or_eq_true]
    constructor
    · rintro ((hf | ⟨e, he, hl, rfl⟩) | ⟨e', ⟨e, he, -, rfl⟩, hl, rfl⟩)
      · exact .inl hf
      · exact .inr ⟨e, he, .inl hl, rfl⟩
      · exact .inr ⟨e, he, .inr (by simpa using hl), by simp⟩
    · rintro (hf | ⟨e, he, hl, rfl⟩)
      · exact .inl (.inl hf)
      · cases hout : leftAt s lost a false e with
        | true => exact .inl (.inr ⟨e, he, hout, rfl⟩)
        | false =>
          exact .inr ⟨agedEntry a e, ⟨e, he, hout, rfl⟩, by simpa using hl.resolve_left (by simp [hout]), by simp⟩
  · rw [hos] at hr
    rcases firstReported_append hr with hr | ⟨hnone, hr⟩
    · rcases h.first r hr with hf | ⟨e, he, hl, hrest⟩
      · exact .inl hf
      · exact .inr ⟨e, he, by rw [hleft, hl]; rfl, hrest⟩
    · obtain ⟨e', he', hl, rfl⟩ := (hmem r).mp (List.mem_of_find?_eq_some hr)
      have hall := h.none_left (firstReported_unmasked hr) hnone
      have hself : (s.rxu.table.filter fun e => !leftAt s lost a false e) = s.rxu.table :=
        List.filter_eq_self.mpr fun e he => by simpa using hall e he
      by_cases hs : TableSorted s.rxu.table
      · have hx : TableSorted x.1.table := by
          rw [h.table]
          exact (hs.filter _).map fun e => by simp
        rw [hsorted hx, hfilter _ fun e => by simp, hself, List.map_map] at hr
        have hcomp : agedFault w.cycle ∘ agedEntry a = agedFault w.cycle := funext fun e => by simp
        rw [hcomp] at hr
        obtain ⟨e, hhead, heq⟩ := firstReported_aged hr
        obtain ⟨he, hel⟩ := List.mem_filter.mp (List.mem_of_head? hhead)
        rw [heq]
        refine .inr ⟨e, he, by rw [hleft, hel]; simp, rfl, fun hsorted => .inr ⟨hel, fun z hz hz' => ?_⟩⟩
        exact (hsorted.filter _).head_le hhead z (List.mem_filter.mpr ⟨hz, hz'⟩)
      · rw [h.table, hself] at he'
        obtain ⟨e, he, rfl⟩ := List.mem_map.mp he'
        rw [agedEntry_sender] at hl
        exact .inr ⟨e, he, by rw [hleft, hl]; simp, by simp, fun h' => absurd h' hs⟩

end

end Sys2Proof.Machine
end

section
/-! SUPPORT. A whole run of the events of a boundary: with no frame taken, and with a message of one segment (R109, R116, R118, R124,
R125). -/

namespace Sys2Proof.Machine

section

variable {w : Ending} {s : State} {lost : Addr → Bool} {x y : Rxu × List FirstFault}

/-! ### No frame taken -/

theorem AgedState.init (w : Ending) (s : State) (lost : Addr → Bool) (buf : List Byte) :
    AgedState w s lost buf false false false ({ s.rxu with segBuf := buf }, []) where
  table := by
    show s.rxu.table = _
    rw [agedEntry_false, List.map_id]
    exact (List.filter_eq_self.mpr fun _ _ => rfl).symm
  free := by
    have : s.rxu.table.filter (leftAt s lost false false) = [] := List.filter_eq_nil_iff.mpr fun _ _ => nofun
    rw [this]
    rfl
  segBuf := rfl
  delivery := rfl
  quiet := rfl
  mem o := by simp [leftAt]
  first r hr := by cases hr

theorem AgedState.steps (htook : w.took = none) {buf : List Byte} {f a l : Bool} {order : List BoundaryEvent}
    (hn : order.Nodup) (h : AgedState w s lost buf f a l x) (ha : a = true → .aging ∉ order) (hl : l = true → .loss ∉ order)
    (hsteps : Steps (RanStep w s lost) order x y) :
    AgedState w s lost buf (f || decide (.fault ∈ order)) (a || decide (.aging ∈ order)) (l || decide (.loss ∈ order)) y := by
  induction order generalizing x f a l with
  | nil =>
    have hy : y = x := hsteps
    simpa [hy] using h
  | cons event order ih =>
    obtain ⟨z, hz, hrest⟩ := hsteps
    obtain ⟨hnot, hnodup⟩ := List.nodup_cons.mp hn
    have ha' : a = true → BoundaryEvent.aging ∉ order := fun h hm => ha h (List.mem_cons_of_mem _ hm)
    have hl' : l = true → BoundaryEvent.loss ∉ order := fun h hm => hl h (List.mem_cons_of_mem _ hm)
    cases event with
    | fault => simpa using ih hnodup (h.fault hz) ha' hl' hrest
    | frame => simpa using ih hnodup (h.frame htook hz) ha' hl' hrest
    | aging =>
      have hfalse : a = false := Bool.eq_false_iff.mpr fun h => ha h List.mem_cons_self
      subst hfalse
      simpa using ih hnodup (h.aging hz) (fun _ => hnot) hl' hrest
    | loss =>
      have hfalse : l = false := Bool.eq_false_iff.mpr fun h => hl h List.mem_cons_self
      subst hfalse
      simpa using ih hnodup (h.loss hz) ha' (fun _ => hnot) hrest

/-! ### A message of one segment (R109, R125) -/

/-- The record of a message of one segment. -/
def singleDelivery (f : Gather) (s : State) : Delivery :=
  ⟨senderOf f.bytes, classOf f.bytes, destinationOf f.bytes == 0xFF, lengthOf f.bytes, [s.rxu.segBuf.take (lengthOf f.bytes)],
    cycleOf f.bytes⟩

/-- Where the boundary stands with the frame of such a message: before its handling there is room for it, after it its record is
the last one. -/
structure SingleState (f : Gather) (s : State) (handled aged : Bool) (x : Rxu) : Prop where
  waiting : handled = false → x.delivery = s.rxu.delivery ∧ 1 ≤ x.free ∧ ∀ e ∈ x.table, ¬ KeyOf f e
  done : handled = true → x.delivery = s.rxu.delivery ++ [singleDelivery f s] ∧ (x.quiet = 0 ∨ (aged = true ∧ x.quiet = 1))

theorem Handled.single {f : Gather} {payload : List Byte} {x y : Rxu} {kinds : List FaultKind}
    (h : Handled f payload x y kinds) (hindex : indexOf f.bytes = 0) (hlast : lastOf f.bytes = true)
    (hfresh : ∀ e ∈ x.table, ¬ KeyOf f e) (hroom : RoomToDeliver x) :
    y.delivery = x.delivery ++ [⟨senderOf f.bytes, classOf f.bytes, destinationOf f.bytes == 0xFF, lengthOf f.bytes,
      [payload], cycleOf f.bytes⟩] ∧ y.quiet = 0 := by
  cases h with
  | whole => exact ⟨rfl, rfl⟩
  | wholeNoSpace _ _ _ _ full => exact absurd hroom full
  | first _ _ _ last => simp [hlast] at last
  | firstNoSpace _ _ last => simp [hlast] at last
  | replaces _ _ _ e _ stands key => exact absurd key (hfresh e stands)
  | orphan _ index | contradicts _ _ index | continues _ _ _ index | completes _ _ index | continuesNoSpace _ _ index => omega

theorem SingleState.aging {f : Gather} {handled : Bool} (h : SingleState f s handled false x.1)
    (hstep : RanStep w s lost .aging x y) : SingleState f s handled true y.1 := by
  have hy : y.1 = agedRxu s.cfg x.1 := congrArg Prod.fst hstep
  rw [hy]
  refine ⟨fun hh => ?_, fun hh => ?_⟩
  · obtain ⟨hdelivery, hfree, hfresh⟩ := h.waiting hh
    refine ⟨hdelivery, hfree.trans (Nat.le_add_right _ _), fun e he hk => ?_⟩
    obtain ⟨e', he', rfl⟩ := List.mem_map.mp he
    exact hfresh e' (List.mem_of_mem_filter he') hk
  · obtain ⟨hdelivery, hquiet⟩ := h.done hh
    have hzero : x.1.quiet = 0 := hquiet.resolve_right (by simp)
    refine ⟨hdelivery, ?_⟩
    show (quietAfter s.cfg.quietLimit x.1).1 = 0 ∨ (_ ∧ (quietAfter s.cfg.quietLimit x.1).1 = 1)
    unfold quietAfter
    split_ifs
    · exact .inr ⟨rfl, by simp [hzero]⟩
    · exact .inl hzero

theorem SingleState.loss {f : Gather} {handled aged : Bool} (h : SingleState f s handled aged x.1)
    (hstep : RanStep w s lost .loss x y) : SingleState f s handled aged y.1 := by
  rw [hstep.1]
  refine ⟨fun hh => ?_, h.done⟩
  obtain ⟨hdelivery, hfree, hfresh⟩ := h.waiting hh
  exact ⟨hdelivery, hfree.trans (Nat.le_add_right _ _), fun e he => hfresh e (List.mem_of_mem_filter he)⟩

theorem SingleState.frame {f : Gather} {aged : Bool} (h : SingleState f s false aged x.1) (htook : w.took = some f)
    (hindex : indexOf f.bytes = 0) (hlast : lastOf f.bytes = true) (hroom : s.rxu.delivery.length < 16)
    (hstep : RanStep w s lost .frame x y) : SingleState f s true aged y.1 := by
  obtain ⟨os, htaken, -⟩ := hstep
  rw [htook] at htaken
  obtain ⟨kinds, hhandled, -⟩ := htaken
  obtain ⟨hdelivery, hfree, hfresh⟩ := h.waiting rfl
  obtain ⟨hy, hquiet⟩ := hhandled.single hindex hlast hfresh ⟨hfree, by rw [hdelivery]; exact hroom⟩
  exact ⟨nofun, fun _ => ⟨by rw [hy, hdelivery]; rfl, .inl hquiet⟩⟩

theorem SingleState.steps {f : Gather} (htook : w.took = some f) (hindex : indexOf f.bytes = 0)
    (hlast : lastOf f.bytes = true) (hroom : s.rxu.delivery.length < 16) {handled aged : Bool} {order : List BoundaryEvent}
    (hn : order.Nodup) (h : SingleState f s handled aged x.1) (hh : handled = true → .frame ∉ order)
    (ha : aged = true → .aging ∉ order) (hsteps : Steps (RanStep w s lost) order x y) :
    SingleState f s (handled || decide (.frame ∈ order)) (aged || decide (.aging ∈ order)) y.1 := by
  induction order generalizing x handled aged with
  | nil =>
    have hy : y = x := hsteps
    simpa [hy] using h
  | cons event order ih =>
    obtain ⟨z, hz, hrest⟩ := hsteps
    obtain ⟨hnot, hnodup⟩ := List.nodup_cons.mp hn
    have hh' : handled = true → BoundaryEvent.frame ∉ order := fun h hm => hh h (List.mem_cons_of_mem _ hm)
    have ha' : aged = true → BoundaryEvent.aging ∉ order := fun h hm => ha h (List.mem_cons_of_mem _ hm)
    cases event with
    | fault =>
      have hfault : z = (x.1, x.2 ++ w.fault.toList) := hz
      have hz' : z.1 = x.1 := by rw [hfault]
      simpa using ih hnodup (by rw [hz']; exact h) hh' ha' hrest
    | frame =>
      have hfalse : handled = false := Bool.eq_false_iff.mpr fun h => hh h List.mem_cons_self
      subst hfalse
      simpa using ih hnodup (h.frame htook hindex hlast hroom hz) (fun _ => hnot) ha' hrest
    | aging =>
      have hfalse : aged = false := Bool.eq_false_iff.mpr fun h => ha h List.mem_cons_self
      subst hfalse
      simpa using ih hnodup (h.aging hz) hh' (fun _ => hnot) hrest
    | loss => simpa using ih hnodup (h.loss hz) hh' ha' hrest

end

/-! ### The counter and the period over a boundary (R157 to R162) -/

/-- Occurrences change the flags and the first-fault record alone, and by these alone. -/
theorem recordedAll_eq (masks : KindSet) (os : List Occurrence) {x y : Flt} (hflags : x.flags = y.flags)
    (hfirst : x.first = y.first) :
    recordedAll masks os x =
      { x with flags := (recordedAll masks os y).flags, first := (recordedAll masks os y).first } := by
  induction os generalizing x y with
  | nil =>
    show x = { x with flags := y.flags, first := y.first }
    rw [← hflags, ← hfirst]
  | cons o os ih =>
    have hx : recordedAll masks (o :: os) x = recordedAll masks os (recorded masks o x) := rfl
    have hy : recordedAll masks (o :: os) y = recordedAll masks os (recorded masks o y) := rfl
    have hone : (recorded masks o x).flags = (recorded masks o y).flags ∧
        (recorded masks o x).first = (recorded masks o y).first := by
      unfold recorded
      split_ifs
      · exact ⟨hflags, hfirst⟩
      · exact ⟨by rw [hflags], by rw [hfirst]⟩
    have hrest : { recorded masks o x with flags := (recordedAll masks os (recorded masks o y)).flags
                                           first := (recordedAll masks os (recorded masks o y)).first } =
        { x with flags := (recordedAll masks os (recorded masks o y)).flags
                 first := (recordedAll masks os (recorded masks o y)).first } := by
      unfold recorded
      split_ifs <;> rfl
    rw [hx, hy, ih hone.1 hone.2, hrest]

theorem recordedAll_first (masks : KindSet) (os : List Occurrence) (x : Flt) :
    (recordedAll masks os x).first = x.first.or (firstReported masks os) := by
  induction os generalizing x with
  | nil => exact Option.or_none.symm
  | cons o os ih =>
    have hcons : recordedAll masks (o :: os) x = recordedAll masks os (recorded masks o x) := rfl
    rw [hcons, ih]
    unfold recorded firstReported
    cases hm : hasKind masks o.kind with
    | true => rw [if_pos rfl, List.find?_cons_of_neg (by simp [hm])]
    | false =>
      rw [if_neg (by simp), List.find?_cons_of_pos (by simp [hm])]
      cases x.first <;> simp

/-- The Fault Unit after the counting of a boundary, in either order (R161). -/
theorem counting_flt (o : Config.FrameEndOrder) (k : Work) {u : State} (h : endsCycle u = true) :
    (counting o k u).flt = periodBoundary u.cfg (countErrors k.errors u.flt) ∨
      (counting o k u).flt = countErrors k.errors (periodBoundary u.cfg u.flt) := by
  unfold counting countAtEnd
  rw [if_pos h]
  split_ifs
  · exact .inl rfl
  · exact .inr rfl

theorem periodBoundary_flags (cfg : Items) (x : Flt) :
    (periodBoundary cfg x).flags = x.flags ∧ (periodBoundary cfg x).first = x.first := by
  unfold periodBoundary transfer
  split
  · exact ⟨rfl, rfl⟩
  · split_ifs <;> exact ⟨rfl, rfl⟩

/-- A boundary that makes no transfer counts the period alone. -/
theorem periodBoundary_counts {cfg : Items} {x : Flt}
    (h : ¬ (cfg.reportMode = .periodic ∧ x.period + 1 = cfg.reportPeriod)) :
    periodBoundary cfg x = { x with period := if cfg.reportMode = .periodic then x.period + 1 else x.period } := by
  unfold periodBoundary
  cases hm : cfg.reportMode with
  | onDemand => simp
  | periodic =>
    have hne : ¬ x.period + 1 = cfg.reportPeriod := fun he => h ⟨hm, he⟩
    simp [hne]

theorem periodBoundary_transfers {cfg : Items} {x : Flt} (hm : cfg.reportMode = .periodic)
    (h : x.period + 1 = cfg.reportPeriod) : periodBoundary cfg x = { transfer x with period := 0 } := by
  simp [periodBoundary, hm, h]

theorem countErrors_withPeriod (n : Nat) (x : Flt) (p : Nat) :
    countErrors n { x with period := p } = { countErrors n x with period := p } := by
  unfold countErrors
  split_ifs <;> rfl

end Sys2Proof.Machine
end

section
/-! SUPPORT. Every cycle boundary as one run: the reports before and after the phase start, the events in their order, and the peer
records (R31 to R33, R134, R136, R139). -/

namespace Sys2Proof.Machine

/-! ### The tasks in their order -/

theorem insertTask_perm (o : Config.FrameEndOrder) (t : Task) (ts : List Task) : (insertTask o t ts).Perm (t :: ts) := by
  induction ts with
  | nil => exact .refl _
  | cons u ts ih =>
    unfold insertTask
    split_ifs
    · exact .refl _
    · exact (ih.cons u).trans (.swap t u ts)

theorem orderTasks_perm (o : Config.FrameEndOrder) (ts : List Task) : (orderTasks o ts).Perm ts := by
  induction ts with
  | nil => exact .refl _
  | cons t ts ih => exact (insertTask_perm o t _).trans (ih.cons t)

/-- The tasks of a boundary before the phase start, in some order. -/
theorem tasksBefore_boundary (o : Config.FrameEndOrder) :
    (tasksBefore o true).Perm ([.fault, .frame, .aging] ++ if o.selectFirst then [] else [.presence]) :=
  orderTasks_perm o _

/-- The events of a boundary after the phase start. -/
def lateEvents (o : Config.FrameEndOrder) : List BoundaryEvent := if o.selectFirst then [.loss] else []

theorem boundary_order (o : Config.FrameEndOrder) :
    ((tasksBefore o true).map Task.event ++ lateEvents o).Perm [.fault, .frame, .aging, .loss] := by
  have h := ((tasksBefore_boundary o).map Task.event).append_right (lateEvents o)
  refine h.trans ?_
  unfold lateEvents
  cases o.selectFirst <;> exact .refl _

theorem tasksBefore_nodup (o : Config.FrameEndOrder) : (tasksBefore o true).Nodup := by
  rw [(tasksBefore_boundary o).nodup_iff]
  cases o.selectFirst <;> decide

theorem presence_mem_tasksBefore (o : Config.FrameEndOrder) :
    Task.presence ∈ tasksBefore o true ↔ o.selectFirst = false := by
  rw [(tasksBefore_boundary o).mem_iff]
  cases o.selectFirst <;> simp

/-! ### The peer records over an evaluation (R134, R136) -/

theorem evaluate_lastHeard (cfg : Items) (heard : Bool) (r : Peer) : (evaluate cfg heard r).lastHeard = r.lastHeard := by
  have htolerant : (tolerantStep heard r).lastHeard = r.lastHeard := by
    fun_cases tolerantStep heard r <;> rfl
  have hstrict : (strictStep heard r).lastHeard = r.lastHeard := by
    unfold strictStep
    split <;> rfl
  unfold evaluate
  cases cfg.presence
  · exact htolerant
  · exact hstrict

theorem evaluateAll_lastHeard (cfg : Items) (whole : Bool) (x : Pmn) (a : Addr) :
    (evaluateAll cfg whole x).peers[a].lastHeard = x.peers[a].lastHeard := by
  cases whole
  · rfl
  · simp [evaluateAll, evaluate_lastHeard]

theorem evaluateAll_marks (cfg : Items) (whole : Bool) (x : Pmn) (a : Addr) :
    (evaluateAll cfg whole x).marks[a] = false := by simp [evaluateAll]

theorem creditIf_pmn (b : Bool) (k : Work) (s : State) :
    (creditIf b k s).pmn = if b then creditedPmn k s.pmn else s.pmn := by
  cases b
  · rfl
  · show (creditHeard k s).pmn = _
    rw [creditHeard_eq]
    rfl

theorem creditedPmn_lastHeard {k : Work} {a : Addr} {c : Cycle} (h : k.heard = some (a, c)) (x : Pmn) :
    (creditedPmn k x).peers[a].lastHeard = some c := by
  simp [creditedPmn, h, credit]

theorem creditedPmn_marks {k : Work} {a : Addr} (h : ∀ c, k.heard ≠ some (a, c)) (x : Pmn) :
    (creditedPmn k x).marks[a] = x.marks[a] := by
  unfold creditedPmn
  cases hk : k.heard with
  | none => rfl
  | some p =>
    have hne : p.1.val ≠ a.val := fun he => h p.2 (by rw [hk, ← Fin.ext he])
    simp [credit, updatePeer, Vector.getElem_set_ne _ _ hne]

/-- The records before and after the evaluation of a boundary, with the heard credit taken first or last. -/
structure Evaluated (k : Work) (w : Ending) (s : State) (creditFirst : Bool) (before after : Pmn) : Prop where
  presence : ∀ a : Addr, before.peers[a].presence = s.pmn.peers[a].presence
  credited : creditFirst = true → ∀ a c, k.heard = some (a, c) → before.peers[a].lastHeard = some c
  final : after = if creditFirst then evaluateAll s.cfg w.whole before else creditedPmn k (evaluateAll s.cfg w.whole before)

theorem creditedPmn_presence (k : Work) (x : Pmn) (a : Addr) :
    (creditedPmn k x).peers[a].presence = x.peers[a].presence := by
  unfold creditedPmn
  split
  · next y cycle _ => by_cases ha : a = y <;> simp [credit, ha]
  · rfl

section

variable {k : Work} {w : Ending} {s t : State} {first : Bool} {before : Pmn} (h : Evaluated k w s first before t.pmn)
include h

theorem Evaluated.lost_iff (a : Addr) : lostSenders s.cfg w.whole before a = true ↔ Lost s t a := by
  have hafter : t.pmn.peers[a].presence = (evaluateAll s.cfg w.whole before).peers[a].presence := by
    rw [h.final]
    cases first
    · exact creditedPmn_presence _ _ _
    · rfl
  rw [lostSenders, decide_eq_true_iff, mem_lostPeers, Lost, h.presence, hafter]

theorem Evaluated.marks {a : Addr} (ha : ∀ c, k.heard ≠ some (a, c)) : t.pmn.marks[a] = false := by
  rw [h.final]
  cases first
  · exact (creditedPmn_marks ha _).trans (evaluateAll_marks _ _ _ _)
  · exact evaluateAll_marks _ _ _ _

theorem Evaluated.heard {a : Addr} {c : Cycle} (ha : k.heard = some (a, c)) : t.pmn.peers[a].lastHeard = some c := by
  rw [h.final]
  cases hf : first
  · exact creditedPmn_lastHeard ha _
  · exact (evaluateAll_lastHeard _ _ _ _).trans (h.credited hf a c ha)

end

/-! ### The run -/

theorem creditIf_rxu (b : Bool) (k : Work) (s : State) : (creditIf b k s).rxu = s.rxu := by
  cases b
  · rfl
  · show (creditHeard k s).rxu = _
    rw [creditHeard_eq]
    rfl

/-- What comes after the phase start of a boundary: the notices of peer loss where the selection is taken first, and the heard
credit where it is taken last. -/
theorem ran_afterStart {s u v : State} {k : Work} {w : Ending} {o : Config.FrameEndOrder} {before : Pmn}
    (hends : endsCycle u = true) (hphase : nextPhase u = 0) (hcycle : nextCycle u = w.cycle + 1) (hwhole : u.ctr.whole = w.whole)
    (hcfg : v.cfg = s.cfg) (hpmn : v.pmn = if o.selectFirst then before else evaluateAll s.cfg w.whole before)
    (acc : List Occurrence) :
    ∃ late, Reported late v (afterStart o k u v) ∧ (∀ x ∈ late, x.kind = .aged) ∧
      Steps (RanStep w s (lostSenders s.cfg w.whole before)) (lateEvents o) (v.rxu, acc)
        ((afterStart o k u v).rxu, acc ++ late) ∧
      (afterStart o k u v).pmn =
        if o.creditFirst then evaluateAll s.cfg w.whole before else creditedPmn k (evaluateAll s.cfg w.whole before) := by
  have hcredit : ∀ x : State, x.pmn = evaluateAll s.cfg w.whole before → (creditIf (!o.creditFirst) k x).pmn =
      if o.creditFirst then evaluateAll s.cfg w.whole before else creditedPmn k (evaluateAll s.cfg w.whole before) := by
    intro x hx
    rw [creditIf_pmn, hx]
    cases o.creditFirst <;> rfl
  cases hs : o.selectFirst with
  | true =>
    rw [hs, if_pos rfl] at hpmn
    have he : afterStart o k u v = creditIf (!o.creditFirst) k (pmnBoundary w.whole 0 (w.cycle + 1) v) := by
      simp only [afterStart, hends, hs, Bool.and_true, if_true, hphase, hcycle, hwhole]
    obtain ⟨late, hreported, haged, hran⟩ := ran_presence (w := w) (c := w.cycle + 1) rfl v hcfg hpmn
    rw [he]
    refine ⟨late, by simpa using hreported.trans (reported_creditIf (!o.creditFirst) k _), haged, ?_, hcredit _ ?_⟩
    · rw [creditIf_rxu, lateEvents, hs, if_pos rfl]
      exact ⟨_, hran acc, rfl⟩
    · rw [pmnBoundary_pmn, hcfg, hpmn]
  | false =>
    rw [hs, if_neg (by simp)] at hpmn
    have he : afterStart o k u v = creditIf (!o.creditFirst) k v := by
      simp only [afterStart, hs, Bool.and_false, Bool.false_eq_true, if_false]
    rw [he]
    refine ⟨[], reported_creditIf _ _ _, fun x hx => absurd hx List.not_mem_nil, ?_, hcredit _ hpmn⟩
    rw [creditIf_rxu, lateEvents, hs, if_neg (by simp), List.append_nil]
    rfl

/-- A cycle boundary from `s` to `t`: counted in `b`, reported up to the phase start in `v`, and reported after it. -/
structure BoundaryRun (s : State) (i : Instr) (w : Ending) (early late : List Occurrence) (lost : Addr → Bool)
    (order order' : List BoundaryEvent) (b v t : State) : Prop where
  exec : exec i s = .next t
  before : Reported early b v
  after : Reported late (phaseStart v) t
  stc : b.stc = w.stc
  txs : b.txs = s.txs
  line : LineStands i w s b
  cfg : b.cfg = s.cfg
  ctr : b.ctr.p = 0 ∧ b.ctr.c = w.cycle + 1 ∧ b.ctr.aligned = true ∧ b.ctr.whole = true ∧ b.ctr.hold = false ∧
    b.ctr.table = s.ctr.table
  flt : b.flt = periodBoundary s.cfg (countErrors w.errors s.flt) ∨ b.flt = countErrors w.errors (periodBoundary s.cfg s.flt)
  perm : (order ++ order').Perm [.fault, .frame, .aging, .loss]
  inOrder : .fault ∈ order ∧ .aging ∈ order
  ran : Steps (RanStep w s lost) order ({ s.rxu with segBuf := if i = .frameEnd then [] else s.rxu.segBuf }, []) (v.rxu, early)
  ran' : Steps (RanStep w s lost) order' (v.rxu, early) (t.rxu, early ++ late)
  lateAged : ∀ o ∈ late, o.kind = .aged
  lost_iff : ∀ a, lost a = true ↔ Lost s t a
  marks : ∀ a, w.heard ≠ some a → t.pmn.marks[a] = false
  heard : ∀ a, w.heard = some a → t.pmn.peers[a].lastHeard = some w.cycle

theorem BoundaryEnd.run {s : State} {i : Instr} {w : Ending} (h : BoundaryEnd s i w) :
    ∃ early late lost order order' b v t, BoundaryRun s i w early late lost order order' b v t := by
  obtain ⟨n, hend, hn⟩ := h
  obtain ⟨o, k, u, ha⟩ := hend.advances
  obtain ⟨p, c, htook, horder⟩ := ha.took
  obtain ⟨rfl, rfl⟩ : p = n ∧ c = w.cycle := by
    rcases horder with ⟨hp, hc, -⟩ | ⟨hne, -⟩
    · exact ⟨hp, hc⟩
    · exact absurd hn hne
  have hends : endsCycle u = true := ha.endsCycle_iff.mpr hn
  have hadvanced := ha.advanced
  have hbegins : beginsAfter p w s = (0, w.cycle + 1) := if_pos hn
  have hphase : nextPhase u = 0 := if_pos hends
  have hcycle : nextCycle u = w.cycle + 1 := by rw [nextCycle, if_pos hends, ha.ctr]
  have hwhole : u.ctr.whole = w.whole := by rw [ha.ctr]
  have htaken : ∀ g, k.taken = some g → ∃ f s0 p c, g = takenFrame f s0 p c := by
    intro g hg
    obtain ⟨f, -, rfl⟩ := Option.map_eq_some_iff.mp (htook.symm.trans hg)
    exact ⟨f, s, p, w.cycle, rfl⟩
  let b := counting o k u
  let b' := creditIf o.creditFirst k b
  have hbcfg : b.cfg = s.cfg := by
    show (counting o k u).cfg = _
    simpa [counting] using ha.cfg
  have hb'cfg : b'.cfg = s.cfg := (reported_creditIf o.creditFirst k b).cfg.trans hbcfg
  have hb'rxu : b'.rxu = { s.rxu with segBuf := if i = .frameEnd then [] else s.rxu.segBuf } := by
    rw [creditIf_rxu, ← ha.rxu]
    simp [counting, b]
  have hv : atStart o k u = runTasks k w.whole 0 (w.cycle + 1) (tasksBefore o true) b' := by
    rw [atStart, hends, hphase, hcycle, hwhole]
  obtain ⟨early, hreported, hran⟩ := ran_runTasks (before := b'.pmn) hn ha.fault htook (tasksBefore_nodup o) b' hb'cfg
    (fun _ => rfl) []
  rw [← hv, hb'rxu, List.nil_append] at hran
  rw [← hv] at hreported
  have hvcfg : (phaseStart (atStart o k u)).cfg = s.cfg := by rw [phaseStart_cfg, hreported.cfg, hb'cfg]
  have hvpmn : (phaseStart (atStart o k u)).pmn =
      if o.selectFirst then b'.pmn else evaluateAll s.cfg w.whole b'.pmn := by
    rw [phaseStart_pmn, hv]
    cases hs : o.selectFirst with
    | true => exact runTasks_pmn (by rw [presence_mem_tasksBefore, hs]; exact nofun) b'
    | false =>
      rw [runTasks_presence (tasksBefore_nodup o) ((presence_mem_tasksBefore o).mpr hs) b' htaken, hb'cfg]
      rfl
  obtain ⟨late, hlate, haged, hran', hfinal⟩ :=
    ran_afterStart (k := k) (o := o) hends hphase hcycle hwhole hvcfg hvpmn early
  rw [phaseStart_rxu] at hran'
  have hevaluated : Evaluated k w s o.creditFirst b'.pmn (afterStart o k u (phaseStart (atStart o k u))).pmn := by
    refine ⟨fun a => ?_, fun hf a c hk => ?_, hfinal⟩
    · show (creditIf _ _ _).pmn.peers[a].presence = _
      rw [creditIf_presence, counting_pmn, ha.presence]
    · show (creditIf _ _ _).pmn.peers[a].lastHeard = _
      rw [creditIf_pmn, if_pos hf]
      exact creditedPmn_lastHeard hk _
  refine ⟨early, late, lostSenders s.cfg w.whole b'.pmn, (tasksBefore o true).map Task.event, lateEvents o, b,
    atStart o k u, afterStart o k u (phaseStart (atStart o k u)), ?_⟩
  exact
    { exec := ha.exec_eq.trans (by rw [phaseEndWith_eq o k ha.aligned])
      before := by simpa using (reported_creditIf o.creditFirst k b).trans hreported
      after := hlate
      stc := by rw [← ha.stc]; simp [b, counting]
      txs := by rw [← ha.txs]; simp [b, counting]
      line := by
        show b.lif = _
        rw [← show u.lif = _ from ha.line]
        simp [b, counting]
      cfg := hbcfg
      ctr := by
        have hb : b.ctr = advanced u := by simp [b, counting]
        rw [hb, hadvanced, hbegins, ha.ctr]
        simp [hn]
      flt := by
        have hflt := counting_flt o k hends
        rw [ha.cfg, ha.flt, ha.errors] at hflt
        exact hflt
      perm := boundary_order o
      inOrder := by
        have hmem := fun t => (tasksBefore_boundary o).mem_iff (a := t)
        exact ⟨List.mem_map.mpr ⟨.fault, (hmem _).mpr (by simp), rfl⟩, List.mem_map.mpr ⟨.aging, (hmem _).mpr (by simp), rfl⟩⟩
      ran := hran
      ran' := hran'
      lateAged := haged
      lost_iff := hevaluated.lost_iff
      marks := fun a hne => hevaluated.marks fun c hk => by
        rw [ha.heard] at hk
        obtain ⟨a', ha', he⟩ := Option.map_eq_some_iff.mp hk
        exact hne (by rw [ha', (Prod.mk.inj he).1])
      heard := fun a he => hevaluated.heard (by rw [ha.heard, he]; rfl) }

end Sys2Proof.Machine
end

section
/-! SUPPORT. Where a cycle boundary leaves the station, the contexts and the line (R28, R58, R59, R102). -/

namespace Sys2Proof.Machine

variable {s b v t : State} {i : Instr} {w : Ending} {early late : List Occurrence} {lost : Addr → Bool}
  {order order' : List BoundaryEvent}

theorem stoppable_or_silent {x : Station} (h : x ≠ .config) : stoppable x = true ∨ x = .silent := by
  cases x with
  | config => exact absurd rfl h
  | silent => exact .inr rfl
  | listen | cold | active => exact .inl rfl

section

variable (r : BoundaryRun s i w early late lost order order' b v t)
include r

theorem BoundaryRun.stops_iff (k : FaultKind) : Stops k b ↔ Stops k s := by rw [Stops, Stops, r.cfg]

theorem BoundaryRun.start_cfg : v.cfg = s.cfg := r.before.cfg.trans r.cfg

/-- p, c and the whole-cycle flag stand over every report of a boundary (R31 to R33). -/
theorem BoundaryRun.start_ctr : v.ctr.p = 0 ∧ v.ctr.table = s.ctr.table := by
  obtain ⟨hp, -, -, -, -, htable⟩ := r.ctr
  have h := r.before.tracked
  exact ⟨by rw [h]; exact hp, by rw [h]; exact htable⟩

theorem BoundaryRun.final_ctr :
    t.ctr.p = 0 ∧ t.ctr.c = w.cycle + 1 ∧ t.ctr.aligned = true ∧ t.ctr.whole = true ∧ t.ctr.hold = false ∧
      t.ctr.skip = .running 2 := by
  obtain ⟨hp, hc, haligned, hwhole, hhold, -⟩ := r.ctr
  have hv := r.before.tracked
  have ht := r.after.tracked
  have hvhold := r.before.hold hhold
  have hthold : t.ctr.hold = false := r.after.hold (by rw [phaseStart_ctr]; exact hvhold)
  rw [phaseStart_ctr] at ht
  refine ⟨?_, ?_, ?_, ?_, hthold, by rw [ht]; rfl⟩
  · rw [ht]; show v.ctr.p = _; rw [hv]; exact hp
  · rw [ht]; show v.ctr.c = _; rw [hv]; exact hc
  · rw [ht]; show v.ctr.aligned = _; rw [hv]; exact haligned
  · rw [ht]; show v.ctr.whole = _; rw [hv]; exact hwhole

/-- A phase 0 that is not offered to the station as the phase start finds it. -/
theorem BoundaryRun.not_offered {station : Station} (hv : v.stc.station = station) (h : NotOffered 0 station s) :
    phaseStart v = v.withCtr { v.ctr with skip := .running 2 } :=
  phaseStart_of_notOffered r.start_ctr.1 hv r.start_ctr.2 r.start_cfg h

theorem BoundaryRun.line_of_not_offered {station : Station} (hv : v.stc.station = station) (h : NotOffered 0 station s) :
    LineStands i w s t := by
  have he := r.not_offered hv h
  show t.lif = _
  rw [r.after.lif, he]
  show v.lif = _
  rw [r.before.lif]
  exact r.line

variable (off : s.lif.tx = none)
include off

theorem BoundaryRun.driver_off : b.lif.tx = none := by rw [r.line]; exact off

/-- A STOPPING report before the phase start: the station is in SILENT there, and nothing more comes of it (log 10). -/
theorem BoundaryRun.stopped_early (hs : stoppable w.stc.station = true) (h : ∃ o ∈ early, Stops o.kind s) :
    t.stc = { w.stc with station := .silent, stationCause := true, pendingExit := t.stc.pendingExit } ∧
      t.txs = contextsReturned s.txs ∧ LineStands i w s t := by
  have hstation := r.before.station (r.driver_off off)
  rw [r.stc] at hstation
  simp only [r.stops_iff] at hstation
  rcases hstation with ⟨-, -, hvstc, hvtxs, -⟩ | ⟨hcalm, -⟩
  · have hsilent : v.stc.station = .silent := by rw [hvstc]; rfl
    have hstart := r.not_offered hsilent (.inr nofun)
    have hunstoppable : stoppable (phaseStart v).stc.station = false := by rw [phaseStart_stc, hsilent]; rfl
    have htstc : t.stc = v.stc := by
      rw [r.after.stc, raiseAll_unstoppable late hunstoppable]
      exact phaseStart_stc v
    have httxs : t.txs = v.txs := by
      rw [r.after.txs, raiseAll_unstoppable late hunstoppable, hstart]
      rfl
    refine ⟨?_, ?_, r.line_of_not_offered hsilent (.inr nofun)⟩
    · rw [htstc, hvstc, ← r.stc]
      rfl
    · rw [httxs, hvtxs, r.txs]
      rfl
  · obtain ⟨o, ho, hk⟩ := h
    exact absurd hk (hcalm hs o ho)

/-- No STOPPING report before the phase start: the station and the contexts stand there. -/
theorem BoundaryRun.calm_early (h : stoppable w.stc.station = true → ∀ o ∈ early, ¬ Stops o.kind s) :
    v.stc = w.stc ∧ v.txs = s.txs := by
  have hstation := r.before.station (r.driver_off off)
  rw [r.stc, r.txs] at hstation
  simp only [r.stops_iff] at hstation
  rcases hstation with ⟨hs, ⟨o, ho, hk⟩, -⟩ | ⟨-, hvstc, hvtxs, -⟩
  · exact absurd hk (h hs o ho)
  · exact ⟨hvstc, hvtxs⟩

omit off in
theorem BoundaryRun.late_stops_iff (k : FaultKind) : Stops k (phaseStart v) ↔ Stops k s := by
  rw [Stops, Stops, phaseStart_cfg, r.start_cfg]

/-- No STOPPING report at all: the station stands. -/
theorem BoundaryRun.calm (h : stoppable w.stc.station = true → ∀ o ∈ early ++ late, ¬ Stops o.kind s) :
    t.stc = w.stc ∧ t.txs = (phaseStart v).txs := by
  have hcalm := r.calm_early off fun hs o ho => h hs o (List.mem_append_left _ ho)
  have hqstc : (phaseStart v).stc = w.stc := by rw [phaseStart_stc, hcalm.1]
  by_cases hs : stoppable w.stc.station = true
  · have hlate : ∀ o ∈ late, ¬ Stops o.kind (phaseStart v) := fun o ho => by
      rw [r.late_stops_iff]
      exact h hs o (List.mem_append_right _ ho)
    rw [r.after.stc, r.after.txs, raiseAll_calm hlate]
    exact ⟨hqstc, rfl⟩
  · have hlate : stoppable (phaseStart v).stc.station = false := by rw [hqstc]; exact Bool.not_eq_true _ ▸ hs
    rw [r.after.stc, r.after.txs, raiseAll_unstoppable late hlate]
    exact ⟨hqstc, rfl⟩

/-- A STOPPING report after the phase start: with the driver OFF the station is in SILENT, and with the driver ON the change waits
for the cut (R58, R59). -/
theorem BoundaryRun.stopped_late (hs : stoppable w.stc.station = true) (hearly : ∀ o ∈ early, ¬ Stops o.kind s)
    (h : ∃ o ∈ late, Stops o.kind s) :
    ((phaseStart v).lif.tx = none →
      t.stc = { w.stc with station := .silent, stationCause := true, pendingExit := t.stc.pendingExit } ∧
        t.txs = contextsReturned (phaseStart v).txs) ∧
      ((phaseStart v).lif.tx ≠ none → t.stc.station = w.stc.station ∧ t.stc.pendingExit ≠ none ∧ t.lif.tx ≠ none) := by
  have hqstc : (phaseStart v).stc = w.stc := by rw [phaseStart_stc, (r.calm_early off fun _ => hearly).1]
  have hqs : stoppable (phaseStart v).stc.station = true := by rw [hqstc]; exact hs
  have hq : ∃ o ∈ late, Stops o.kind (phaseStart v) := by
    obtain ⟨o, ho, hk⟩ := h
    exact ⟨o, ho, (r.late_stops_iff _).mpr hk⟩
  refine ⟨fun htx => ?_, fun htx => ?_⟩
  · rw [r.after.stc, r.after.txs, raiseAll_stops htx hqs hq, ← hqstc]
    exact ⟨rfl, rfl⟩
  · obtain ⟨e, he, -, hsome, -⟩ := raiseAll_on (os := late) htx
    rw [r.after.stc, r.after.lif, he, ← hqstc]
    exact ⟨rfl, hsome hqs hq, htx⟩

/-! ### In the words of the statements -/

theorem BoundaryRun.stoppedFrom (hs : w.stc.station ≠ .config) (h : ∃ o ∈ early, Stops o.kind s) :
    StoppedFrom w.stc s t ∧ LineStands i w s t := by
  rcases stoppable_or_silent hs with hstop | hsilent
  · obtain ⟨hstc, htxs, hline⟩ := r.stopped_early off hstop h
    exact ⟨⟨fun h' => absurd hstop (by rw [h']; exact nofun), fun _ => ⟨hstc, htxs⟩⟩, hline⟩
  · have hnot : ¬ stoppable w.stc.station = true := by rw [hsilent]; exact nofun
    have hv := r.calm_early off fun h' => absurd h' hnot
    have ht := r.calm off fun h' => absurd h' hnot
    have hvsilent : v.stc.station = .silent := by rw [hv.1, hsilent]
    refine ⟨⟨fun _ => ⟨ht.1, ?_⟩, fun h' => absurd hsilent h'⟩, r.line_of_not_offered hvsilent (.inr nofun)⟩
    rw [ht.2, r.not_offered hvsilent (.inr nofun)]
    exact hv.2

theorem BoundaryRun.silent_or_waiting (hs : w.stc.station ≠ .config) (h : ∃ o ∈ early ++ late, Stops o.kind s) :
    t.stc.station = .silent ∨ (t.stc.pendingExit ≠ none ∧ t.lif.tx ≠ none) := by
  rcases stoppable_or_silent hs with hstop | hsilent
  · by_cases hearly : ∃ o ∈ early, Stops o.kind s
    · left
      rw [(r.stopped_early off hstop hearly).1]
    · have hcalm : ∀ o ∈ early, ¬ Stops o.kind s := fun o ho hk => hearly ⟨o, ho, hk⟩
      obtain ⟨o, ho, hk⟩ := h
      have hlate : ∃ o ∈ late, Stops o.kind s := ⟨o, (List.mem_append.mp ho).resolve_left fun h => hcalm o h hk, hk⟩
      obtain ⟨hoff, hon⟩ := r.stopped_late off hstop hcalm hlate
      by_cases htx : (phaseStart v).lif.tx = none
      · left
        rw [(hoff htx).1]
      · exact .inr (hon htx).2
  · left
    rw [(r.calm off fun h' => by rw [hsilent] at h'; cases h').1, hsilent]

theorem BoundaryRun.moved (h : t.stc.station ≠ w.stc.station) :
    t.stc = { w.stc with station := .silent, stationCause := true, pendingExit := t.stc.pendingExit } ∧
      t.txs = contextsReturned t.txs := by
  have hidem : ∀ x : Txs, contextsReturned x = contextsReturned (contextsReturned x) := fun x => (returnContexts_idem x).symm
  by_cases hstop : stoppable w.stc.station = true
  · by_cases hearly : ∃ o ∈ early, Stops o.kind s
    · obtain ⟨hstc, htxs, -⟩ := r.stopped_early off hstop hearly
      exact ⟨hstc, by rw [htxs]; exact hidem _⟩
    · have hcalm : ∀ o ∈ early, ¬ Stops o.kind s := fun o ho hk => hearly ⟨o, ho, hk⟩
      by_cases hlate : ∃ o ∈ late, Stops o.kind s
      · obtain ⟨hoff, hon⟩ := r.stopped_late off hstop hcalm hlate
        by_cases htx : (phaseStart v).lif.tx = none
        · obtain ⟨hstc, htxs⟩ := hoff htx
          exact ⟨hstc, by rw [htxs]; exact hidem _⟩
        · exact absurd (hon htx).1 h
      · have hall : ∀ o ∈ early ++ late, ¬ Stops o.kind s := fun o ho hk =>
          (List.mem_append.mp ho).elim (fun ho => hcalm o ho hk) fun ho => hlate ⟨o, ho, hk⟩
        exact absurd (by rw [(r.calm off fun _ => hall).1]) h
  · exact absurd (by rw [(r.calm off fun h' => absurd h' hstop).1]) h

theorem BoundaryRun.stands_of_not_offered (h : NotOffered 0 w.stc.station s) :
    LineStands i w s t ∧ t.txs = if t.stc.station = w.stc.station then s.txs else contextsReturned s.txs := by
  have hsilentNe : stoppable w.stc.station = true → Station.silent ≠ w.stc.station := fun hs he => by
    rw [← he] at hs; cases hs
  by_cases hearly : stoppable w.stc.station = true ∧ ∃ o ∈ early, Stops o.kind s
  · obtain ⟨hstc, htxs, hline⟩ := r.stopped_early off hearly.1 hearly.2
    refine ⟨hline, ?_⟩
    rw [htxs, hstc, if_neg (hsilentNe hearly.1)]
  · have hcalm : stoppable w.stc.station = true → ∀ o ∈ early, ¬ Stops o.kind s := fun hs o ho hk => hearly ⟨hs, o, ho, hk⟩
    obtain ⟨hvstc, hvtxs⟩ := r.calm_early off hcalm
    have hstation : v.stc.station = w.stc.station := by rw [hvstc]
    have hstart := r.not_offered hstation h
    have hqtxs : (phaseStart v).txs = s.txs := by rw [hstart]; exact hvtxs
    have hqoff : (phaseStart v).lif.tx = none := by
      rw [hstart]
      show v.lif.tx = _
      rw [r.before.lif]
      exact r.driver_off off
    refine ⟨r.line_of_not_offered hstation h, ?_⟩
    by_cases hlate : stoppable w.stc.station = true ∧ ∃ o ∈ late, Stops o.kind s
    · obtain ⟨hstc, htxs⟩ := (r.stopped_late off hlate.1 (hcalm hlate.1) hlate.2).1 hqoff
      rw [htxs, hqtxs, hstc, if_neg (hsilentNe hlate.1)]
    · obtain ⟨hstc, htxs⟩ := r.calm off fun hs o ho hk => (List.mem_append.mp ho).elim (fun ho => hcalm hs o ho hk)
        fun ho => hlate ⟨hs, o, ho, hk⟩
      rw [htxs, hqtxs, if_pos (by rw [hstc])]

end

end Sys2Proof.Machine
end

section
/-! SUPPORT. A cycle boundary at the Receive Unit and the Fault Unit, with no frame taken and with one (R109 to R118, R124, R125,
R149 to R152, R157 to R161). -/

namespace Sys2Proof.Machine

variable {s b v t : State} {i : Instr} {w : Ending} {early late : List Occurrence} {lost : Addr → Bool}
  {order order' : List BoundaryEvent}

theorem countErrors_withRecord (n : Nat) (x : Flt) (flags : KindSet) (first : Option FirstFault) :
    countErrors n { x with flags := flags, first := first } = { countErrors n x with flags := flags, first := first } := by
  unfold countErrors
  split_ifs <;> rfl

section

variable (r : BoundaryRun s i w early late lost order order' b v t)
include r

/-! ### The Fault Unit -/

theorem BoundaryRun.final_flt : t.flt = recordedAll s.cfg.masks (early ++ late) b.flt := by
  rw [r.after.flt, phaseStart_flt, phaseStart_cfg, r.start_cfg, r.before.flt, r.cfg]
  exact (List.foldl_append ..).symm

theorem BoundaryRun.counted_record : b.flt.flags = s.flt.flags ∧ b.flt.first = s.flt.first := by
  have hp := fun x => periodBoundary_flags s.cfg x
  rcases r.flt with h | h <;> rw [h]
  · exact ⟨(hp _).1.trans (countErrors_flags _ _), (hp _).2.trans (countErrors_first _ _)⟩
  · exact ⟨(countErrors_flags _ _).trans (hp _).1, (countErrors_first _ _).trans (hp _).2⟩

/-- The flags and the first-fault record are those that the occurrences make of those before the boundary. -/
theorem BoundaryRun.record :
    t.flt.flags = (recordedAll s.cfg.masks (early ++ late) s.flt).flags ∧
      t.flt.first = (recordedAll s.cfg.masks (early ++ late) s.flt).first := by
  have h := recordedAll_eq s.cfg.masks (early ++ late) r.counted_record.1 r.counted_record.2
  rw [r.final_flt, h]
  exact ⟨rfl, rfl⟩

theorem BoundaryRun.flt_withRecord : t.flt = { b.flt with flags := t.flt.flags, first := t.flt.first } := by
  have h := recordedAll_eq s.cfg.masks (early ++ late) (x := b.flt) rfl rfl
  rw [← r.final_flt] at h
  exact h

theorem BoundaryRun.flt_counts (h : ¬ (s.cfg.reportMode = .periodic ∧ s.flt.period + 1 = s.cfg.reportPeriod)) :
    t.flt = { countErrors w.errors s.flt with
      flags := t.flt.flags, first := t.flt.first
      period := if s.cfg.reportMode = .periodic then s.flt.period + 1 else s.flt.period } := by
  have hb : b.flt = { countErrors w.errors s.flt with
      period := if s.cfg.reportMode = .periodic then s.flt.period + 1 else s.flt.period } := by
    rcases r.flt with hf | hf
    · rw [hf, periodBoundary_counts (by rwa [countErrors_period]), countErrors_period]
    · rw [hf, periodBoundary_counts h, countErrors_withPeriod]
  conv_lhs => rw [r.flt_withRecord, hb]

theorem BoundaryRun.flt_transfers (hm : s.cfg.reportMode = .periodic) (h : s.flt.period + 1 = s.cfg.reportPeriod) :
    (let x := countErrors w.errors s.flt
     t.flt = { flags := t.flt.flags, first := t.flt.first, lineErrors := 0, liveOverflow := false,
               snapshot := x.lineErrors, snapOverflow := x.liveOverflow, reportReady := true, period := 0 }) ∨
    t.flt = countErrors w.errors
      { flags := t.flt.flags, first := t.flt.first, lineErrors := 0, liveOverflow := false,
        snapshot := s.flt.lineErrors, snapOverflow := s.flt.liveOverflow, reportReady := true, period := 0 } := by
  rcases r.flt with hf | hf
  · left
    intro x
    rw [periodBoundary_transfers hm (by rw [countErrors_period]; exact h)] at hf
    conv_lhs => rw [r.flt_withRecord, hf]
    rfl
  · right
    rw [periodBoundary_transfers hm h] at hf
    conv_lhs => rw [r.flt_withRecord, hf, ← countErrors_withRecord]
    rfl

/-! ### No frame taken -/

theorem BoundaryRun.all_events (event : BoundaryEvent) : event ∈ order ++ order' :=
  r.perm.mem_iff.mpr (by cases event <;> decide)

theorem BoundaryRun.nodup : (order ++ order').Nodup := r.perm.nodup_iff.mpr (by decide)

theorem BoundaryRun.aged (htook : w.took = none) :
    AgedState w s lost (if i = .frameEnd then [] else s.rxu.segBuf) true true true (t.rxu, early ++ late) := by
  have h := (AgedState.init w s lost (if i = .frameEnd then [] else s.rxu.segBuf)).steps htook r.nodup nofun nofun
    (r.ran.append r.ran')
  simpa only [r.all_events, decide_true, Bool.or_true] using h

/-- Before the phase start the frame's own fault has been reported, and the aging has come. -/
theorem BoundaryRun.aged_early (htook : w.took = none) :
    AgedState w s lost (if i = .frameEnd then [] else s.rxu.segBuf) true true (decide (.loss ∈ order)) (v.rxu, early) := by
  have h := (AgedState.init w s lost (if i = .frameEnd then [] else s.rxu.segBuf)).steps htook
    (List.Nodup.of_append_left r.nodup) nofun nofun r.ran
  simpa only [r.inOrder.1, r.inOrder.2, decide_true, Bool.or_true, Bool.false_or] using h

/-- An entry leaves at the boundary: it reaches the age limit, or its sender moves into ABSENT (R116, R118). -/
theorem BoundaryRun.left_iff (e : Entry) : leftAt s lost true true e = true ↔ AgesOut s e ∨ Lost s t e.sender := by
  simp only [leftAt, Bool.true_and, Bool.or_eq_true, decide_eq_true_iff, r.lost_iff]

theorem BoundaryRun.mem_table (htook : w.took = none) (x : Entry) :
    x ∈ t.rxu.table ↔ ∃ e ∈ s.rxu.table, ¬ (AgesOut s e ∨ Lost s t e.sender) ∧ x = { e with age := e.age + 1 } := by
  have htable : t.rxu.table = _ := (r.aged htook).table
  rw [htable]
  simp only [List.mem_map, List.mem_filter, Bool.not_eq_true', ← Bool.not_eq_true, r.left_iff, and_assoc]
  exact exists_congr fun e => and_congr_right fun _ => and_congr_right fun _ => eq_comm

theorem BoundaryRun.blocks (htook : w.took = none) :
    t.rxu.free + entryBlocks t.rxu.table = s.rxu.free + entryBlocks s.rxu.table := by
  have htable : t.rxu.table = _ := (r.aged htook).table
  have hfree : t.rxu.free = _ := (r.aged htook).free
  rw [htable, hfree, entryBlocks_map fun e => by simp]
  exact discardEntries_blocks (leftAt s lost true true) s.rxu

theorem BoundaryRun.mem_occurrences (htook : w.took = none) (o : Occurrence) :
    o ∈ early ++ late ↔ w.fault = some o ∨
      ∃ e ∈ s.rxu.table, (AgesOut s e ∨ Lost s t e.sender) ∧ o = agedFault w.cycle e := by
  have h := (r.aged htook).mem o
  simp only [r.left_iff, true_and] at h
  exact h

theorem BoundaryRun.quiet (htook : w.took = none) :
    (s.rxu.delivery = [] → t.rxu.quiet = s.rxu.quiet ∧ t.rxu.quietFlag = s.rxu.quietFlag) ∧
    (s.rxu.delivery ≠ [] → s.rxu.quiet < s.cfg.quietLimit →
      t.rxu.quiet = s.rxu.quiet + 1 ∧
        t.rxu.quietFlag = (s.rxu.quietFlag || decide (s.rxu.quiet + 1 = s.cfg.quietLimit))) ∧
    (s.rxu.delivery ≠ [] → s.cfg.quietLimit ≤ s.rxu.quiet →
      t.rxu.quiet = s.rxu.quiet ∧ t.rxu.quietFlag = s.rxu.quietFlag) := by
  have h : (t.rxu.quiet, t.rxu.quietFlag) = quietAfter s.cfg.quietLimit s.rxu := (r.aged htook).quiet
  unfold quietAfter at h
  refine ⟨fun hd => ?_, fun hd hq => ?_, fun hd hq => ?_⟩
  · rw [if_neg fun hc => hc.1 hd] at h
    exact Prod.mk.inj h
  · rw [if_pos ⟨hd, hq⟩] at h
    exact Prod.mk.inj h
  · rw [if_neg fun hc => Nat.not_lt.mpr hq hc.2] at h
    exact Prod.mk.inj h

theorem BoundaryRun.flags_iff (htook : w.took = none) (k : FaultKind) : hasKind t.flt.flags k = true ↔
    hasKind s.flt.flags k = true ∨ (hasKind s.cfg.masks k = false ∧
      (w.fault.map FirstFault.kind = some k ∨
        (k = .aged ∧ ∃ e ∈ s.rxu.table, AgesOut s e ∨ Lost s t e.sender))) := by
  rw [r.record.1, recordedAll_hasKind]
  refine or_congr_right (and_congr_right fun _ => ?_)
  simp only [r.mem_occurrences htook, Option.map_eq_some_iff]
  constructor
  · rintro ⟨o, hf | ⟨e, he, hleft, rfl⟩, rfl⟩
    · exact .inl ⟨o, hf, rfl⟩
    · exact .inr ⟨rfl, e, he, hleft⟩
  · rintro (⟨o, hf, rfl⟩ | ⟨rfl, e, he, hleft⟩)
    · exact ⟨o, .inl hf, rfl⟩
    · exact ⟨_, .inr ⟨e, he, hleft, rfl⟩, rfl⟩

theorem BoundaryRun.first_stands {o : FirstFault} (h : s.flt.first = some o) : t.flt.first = some o := by
  rw [r.record.2, recordedAll_first, h]
  rfl

theorem BoundaryRun.first_eq (h : s.flt.first = none) : t.flt.first = firstReported s.cfg.masks (early ++ late) := by
  rw [r.record.2, recordedAll_first, h]
  rfl

theorem BoundaryRun.first_none_iff (htook : w.took = none) (h : s.flt.first = none) : t.flt.first = none ↔
    (∀ o, w.fault = some o → hasKind s.cfg.masks o.kind = true) ∧
      (hasKind s.cfg.masks .aged = true ∨ ∀ e ∈ s.rxu.table, ¬ (AgesOut s e ∨ Lost s t e.sender)) := by
  rw [r.first_eq h, firstReported, List.find?_eq_none]
  simp only [Bool.not_eq_true', Bool.not_eq_false, r.mem_occurrences htook]
  constructor
  · intro hall
    refine ⟨fun o ho => hall o (.inl ho), ?_⟩
    by_cases hm : hasKind s.cfg.masks .aged = true
    · exact .inl hm
    · exact .inr fun e he hleft => hm (hall _ (.inr ⟨e, he, hleft, rfl⟩))
  · rintro ⟨hfault, haged⟩ o (ho | ⟨e, he, hleft, rfl⟩)
    · exact hfault o ho
    · exact haged.resolve_right fun hnone => hnone e he hleft

theorem BoundaryRun.first_some (htook : w.took = none) (h : s.flt.first = none) {o : FirstFault} (ho : t.flt.first = some o) :
    hasKind s.cfg.masks o.kind = false ∧
      (w.fault = some o ∨ ∃ e ∈ s.rxu.table, (AgesOut s e ∨ Lost s t e.sender) ∧ o = agedFault w.cycle e ∧
        (ReassemblyWf s → FirstOf (AgesOut s) s e ∨ FirstOf (fun x => Lost s t x.sender) s e)) := by
  rw [r.first_eq h] at ho
  refine ⟨firstReported_unmasked ho, ?_⟩
  rcases (r.aged htook).first o ho with hf | ⟨e, he, hleft, heq, hfirst⟩
  · exact .inl hf
  · refine .inr ⟨e, he, (r.left_iff e).mp hleft, heq, fun hwf => (hfirst hwf.keys).imp id fun ⟨hl, hle⟩ => ?_⟩
    exact ⟨(r.lost_iff _).mp hl, fun x hx hx' => hle x hx ((r.lost_iff _).mpr hx')⟩

/-- Where the frame's own fault stops the station, or an AGED of the aging does, it is stopped before the phase start. -/
theorem BoundaryRun.stops_early (htook : w.took = none)
    (h : (∃ o, w.fault = some o ∧ Stops o.kind s) ∨ (Stops .aged s ∧ ∃ e ∈ s.rxu.table, AgesOut s e)) :
    ∃ o ∈ early, Stops o.kind s := by
  have hmem := (r.aged_early htook).mem
  rcases h with ⟨o, ho, hk⟩ | ⟨hk, e, he, hage⟩
  · exact ⟨o, (hmem o).mpr (.inl ⟨rfl, ho⟩), hk⟩
  · have hleft : leftAt s lost true (decide (.loss ∈ order)) e = true := by simp [leftAt, decide_eq_true hage]
    exact ⟨_, (hmem _).mpr (.inr ⟨e, he, hleft, rfl⟩), hk⟩

/-! ### A message of one segment -/

theorem BoundaryRun.single {f : Gather} (htook : w.took = some f) (hi : indexOf f.bytes = 0) (hl : lastOf f.bytes = true)
    (hfree : 1 ≤ s.rxu.free) (hroom : s.rxu.delivery.length < 16) (hfresh : ∀ e ∈ s.rxu.table, ¬ KeyOf f e) :
    t.rxu.delivery = s.rxu.delivery ++ [singleDelivery f s] ∧ (t.rxu.quiet = 0 ∨ t.rxu.quiet = 1) := by
  have hinit : SingleState f s false false { s.rxu with segBuf := if i = .frameEnd then [] else s.rxu.segBuf } :=
    ⟨fun _ => ⟨rfl, hfree, hfresh⟩, nofun⟩
  have h := hinit.steps (x := (_, [])) htook hi hl hroom r.nodup nofun nofun (r.ran.append r.ran')
  obtain ⟨hdelivery, hquiet⟩ := h.done (by simp [r.all_events])
  exact ⟨hdelivery, hquiet.imp_right And.right⟩

end

end Sys2Proof.Machine

namespace Sys2Proof.Proofs

open Sys2Proof.Machine

/-- Settles O40: every boundary is one run of its events, cut at the phase start; no order of them is told apart. -/
theorem cycleBoundary : Obligations.CycleBoundary := by
  intro i w s hend hages
  obtain ⟨early, late, lost, order, order', b, v, t, r⟩ := hend.run
  obtain ⟨n, hphase, -⟩ := hend
  have off := hphase.off
  refine ⟨t, r.exec, r.final_ctr, fun hno => r.stands_of_not_offered off hno, r.moved off, r.marks, r.heard, r.flt_counts,
    r.flt_transfers, fun htook => ?_, fun f htook hwf => ?_, fun f htook hi hl hfree hroom hfresh => ?_⟩
  · intro leaves aged
    obtain ⟨hquiet, hquiet', hquiet''⟩ := r.quiet htook
    have hmem := r.mem_occurrences htook
    refine ⟨r.mem_table htook, r.blocks htook, (r.aged htook).segBuf, (r.aged htook).delivery, hquiet, hquiet', hquiet'',
      r.flags_iff htook, fun o => r.first_stands, fun hnone => ⟨r.first_none_iff htook hnone, fun o => r.first_some htook hnone⟩,
      fun hs hstops => r.stoppedFrom off (hphase.station hs) (r.stops_early htook hstops), fun hfault haged => ?_,
      fun hs hstop ⟨e, he, hleft⟩ => ?_⟩
    · refine (r.calm off fun _ o ho hk => ?_).1
      rcases (hmem o).mp ho with hf | ⟨e, he, hleft, rfl⟩
      · exact hfault o hf hk
      · exact haged hk e he hleft
    · exact r.silent_or_waiting off (hphase.station hs) ⟨_, (hmem _).mpr (.inr ⟨e, he, hleft, rfl⟩), hstop⟩
  · obtain ⟨hframe, htaken, hstc, -⟩ := hphase.taken htook
    have hstation : w.stc.station ≠ .config := by
      rw [hstc]
      rcases htaken.2.2.1 with h | h <;> rw [h] <;> exact nofun
    have hran := steps_boundaryStep (r.ran.append r.ran') r.lost_iff hwf.keys
    rw [if_pos hframe] at hran
    refine ⟨order ++ order', early ++ late, r.perm, hran, r.record.1, r.record.2, fun ⟨o, ho, hne, hk⟩ => ?_,
      r.silent_or_waiting off hstation, fun hcalm => (r.calm off fun _ => hcalm).1⟩
    have hearly : o ∈ early := (List.mem_append.mp ho).resolve_right fun h => hne (r.lateAged o h)
    exact r.stoppedFrom off hstation ⟨o, hearly, hk⟩
  · exact r.single htook hi hl hfree hroom hfresh

end Sys2Proof.Proofs
end

section
/-! SUPPORT. The commands that move the station: JOIN, LEAVE, REJOIN and RESTART, the resets, and the cut (R49, R59, R61 to R64). -/

namespace Sys2Proof.Machine

variable {s : State}

/-! ### Transactions by what their owning block decides -/

section

variable {i : Instr} {c : Command} {args payload : List Byte}

/-- A transaction that its owning block refuses is answered so, and nothing else happens (R170). -/
theorem exec_refused {r : Result} (h : transactionOf i = some (c, args, payload)) (hw : Takeable i s)
    (hd : decideCommand c (receiveAll c args payload s) = refuse r (receiveAll c args payload s)) :
    ∃ t, exec i s = .next t ∧ OnlyAnswered r [] s t := by
  refine ⟨_, exec_takeable h hw, ?_⟩
  rw [hd]
  exact onlyAnswered_refuse ..

/-- A transaction that its owning block grants is answered OK in the state that the block leaves. -/
theorem exec_granted {reply : List Byte} {u : State} (h : transactionOf i = some (c, args, payload)) (hw : Takeable i s)
    (hd : decideCommand c (receiveAll c args payload s) = grant reply u) : exec i s = .next (answer (grant reply u)) := by
  rw [exec_takeable h hw, hd]

end

/-! ### The cold-start wait and the entry to LISTEN -/

/-- The cold-start wait at full length, for a station that owns a phase (R39). -/
theorem startColdWait_eq (s : State) :
    startColdWait s = if ∃ e ∈ s.ctr.table, e.owner = s.cfg.ownAddress then some (48 + 8 * s.cfg.ownAddress.val) else none := by
  simp only [← any_owner_iff]
  rfl

/-- The Cycle Tracker in LISTEN: its reset values, but for the table, its digest and the cold-start wait (R39, R45). -/
theorem enterListen_ctr (s : State) :
    (enterListen s).ctr = { State.reset.ctr with
      table := s.ctr.table, digest := s.ctr.digest,
      coldWait := if ∃ e ∈ s.ctr.table, e.owner = s.cfg.ownAddress
                  then some (48 + 8 * s.cfg.ownAddress.val) else none } := by
  rw [← startColdWait_eq]
  rfl

/-! ### The decisions of the state commands (R49, R61 to R63) -/

theorem decideJoin_busy (h : s.stc.station ≠ .config) : decideJoin s = refuse .busy s := if_pos h

theorem decideJoin_rejected (hs : s.stc.station = .config) (h : s.ctr.table = []) : decideJoin s = refuse .rejected s := by
  simp [decideJoin, hs, tableLength, h]

theorem decideJoin_ok (hs : s.stc.station = .config) (h : s.ctr.table ≠ []) : decideJoin s = grant [] (applyJoin s) := by
  simp [decideJoin, hs, tableLength, h]

theorem decideLeave_busy (h : s.stc.station = .config) : decideLeave s = refuse .busy s := if_pos h

theorem decideLeave_off (hs : s.stc.station ≠ .config) (h : s.lif.tx = none) : decideLeave s = grant [] (enterConfig s) := by
  simp [decideLeave, applyLeave, hs, h]

theorem decideLeave_on (hs : s.stc.station ≠ .config) (h : s.lif.tx ≠ none) :
    decideLeave s = grant [] (s.withStc { s.stc with pendingExit := some .toConfig }) := by
  simp [decideLeave, applyLeave, hs, Option.isSome_iff_ne_none.mpr h]

theorem decideRejoin_busy (h : s.stc.station ≠ .silent) : decideRejoin s = refuse .busy s := if_neg h

theorem decideRejoin_ok (h : s.stc.station = .silent) : decideRejoin s = grant [] (applyRejoin s) := if_pos h

/-! ### The resets (R63, R64) -/

theorem intPin_reset : intPin State.reset = .released := by decide

theorem softResetDue_iff (s : State) :
    softResetDue s = true ↔ (s.stc.softReset = .armed ∧ s.lif.tx = none) ∨ s.stc.softReset = .waiting := by
  simp [softResetDue]

theorem exec_softReset_due (h : softResetDue s = true) : exec .softReset s = .next (softResetState s) := if_pos h

theorem exec_softReset_stay (h : ¬ softResetDue s = true) : exec .softReset s = .next s := if_neg h

/-! ### CUT (R7, R59, R63, R101) -/

/-- A STOPPING fault leaves the two states in which the driver can be ON (R58). -/
theorem stoppable_active_cold {x : Station} (h : x = .active ∨ x = .cold) : stoppable x = true := by
  rcases h with h | h <;> rw [h] <;> rfl

/-- The driver OFF and the frame in flight ended without progress, before the change of state that waits. -/
def cutState (s : State) : State := (driverOff s).withTxs (txsDropFlight s.txs)

theorem cutAwaited_iff (s : State) : cutAwaited s = true ↔ s.stc.pendingExit ≠ none ∨ s.stc.softReset = .waiting := by
  simp [cutAwaited, Option.isSome_iff_ne_none]

theorem exec_cut_due (ht : s.lif.tx ≠ none) (h : s.stc.pendingExit ≠ none ∨ s.stc.softReset = .waiting) :
    exec .cut s = .next (finishExit (cutState s)) :=
  if_pos ⟨Option.isSome_iff_ne_none.mpr ht, (cutAwaited_iff s).mpr h⟩

theorem exec_cut_stay (h : s.lif.tx = none ∨ (s.stc.pendingExit = none ∧ s.stc.softReset ≠ .waiting)) :
    exec .cut s = .next s := by
  refine if_neg fun ⟨ht, hc⟩ => ?_
  rcases h with h | ⟨he, hr⟩
  · exact Option.isSome_iff_ne_none.mp ht h
  · exact ((cutAwaited_iff s).mp hc).elim (fun h => h he) hr

/-- The change of state leaves the driver OFF (R59). -/
theorem Entered.driver_off {e : Exit} {u t : State} (h : Entered e u t) (hu : u.lif.tx = none) : t.lif.tx = none := by
  cases e with
  | toSilent =>
    obtain ⟨-, -, -, hsame, -⟩ := h
    have hlif : t.lif = u.lif := hsame .lif (by decide)
    rw [hlif, hu]
  | toConfig =>
    obtain ⟨-, hlif, -⟩ := h
    rw [hlif]

/-- With the driver OFF, LDE is low. -/
theorem lde_off (h : s.lif.tx = none) : lde s = false := by simp [lde, h]

end Sys2Proof.Machine

namespace Sys2Proof.Proofs

open Sys2Proof.Machine

/-- Settles O4: each reset by its level or its moment; what the soft reset keeps stands in its definition. -/
theorem resets : Obligations.Resets := by
  intro s
  refine ⟨⟨heldInReset s, rfl, rfl, rfl, fun _ => rfl, intPin_reset, rfl⟩, fun h => if_pos h,
    fun h => if_neg (by simp [h]), fun h => ?_, fun h => exec_softReset_stay fun hdue => ?_⟩
  · exact ⟨_, exec_softReset_due ((softResetDue_iff s).mpr h), rfl, rfl, rfl, rfl, rfl, rfl, derivedPeers_derivePeers _ _,
      rfl, rfl, rfl, rfl, rfl⟩
  · rcases (softResetDue_iff s).mp hdue with ⟨ha, ht⟩ | hw
    · rcases h with h | ⟨-, h⟩
      · rw [ha] at h; cases h
      · exact h ht
    · rcases h with h | ⟨h, -⟩ <;> rw [hw] at h <;> cases h

/-- Settles O14: the decision of JOIN by its branches. -/
theorem join : Obligations.Join := by
  intro s hw
  refine ⟨fun hs => exec_refused rfl hw (decideJoin_busy hs), fun hs ht => exec_refused rfl hw (decideJoin_rejected hs ht),
    fun hs ht => ⟨_, exec_granted rfl hw (decideJoin_ok hs ht), ⟨rfl, rfl, rfl⟩, rfl, rfl, enterListen_ctr _,
      derivedPeers_derivePeers _ _, rfl, ⟨rfl, rfl, rfl⟩, fun x hx => ?_, rfl⟩⟩
  cases x <;> simp at hx <;> rfl

/-- Settles O15: the decision of LEAVE by the station and the driver. -/
theorem leave : Obligations.Leave := by
  intro s hw
  refine ⟨fun hs => exec_refused rfl hw (decideLeave_busy hs), fun hs ht => ?_, fun hs ht => ?_⟩
  · have hlif : { s.lif with receiver := .off, tx := none, frameEndDue := false } =
        { s.lif with receiver := .off, frameEndDue := false } := by rw [← ht]
    refine ⟨_, exec_granted rfl hw (decideLeave_off hs ht), ⟨rfl, rfl, rfl⟩, rfl, hlif, rfl, rfl, rfl, rfl,
      ⟨rfl, rfl, rfl⟩, fun x hx => ?_, rfl⟩
    cases x <;> simp at hx <;> rfl
  · refine ⟨_, exec_granted rfl hw (decideLeave_on hs ht), ⟨rfl, rfl, rfl⟩, rfl, rfl, ⟨rfl, rfl, rfl⟩, fun x hx => ?_, rfl⟩
    cases x <;> simp at hx <;> rfl

/-- Settles O16: the decision of REJOIN by the station. -/
theorem rejoin : Obligations.Rejoin := by
  intro s hw
  refine ⟨fun hs => exec_refused rfl hw (decideRejoin_busy hs),
    fun hs => ⟨_, exec_granted rfl hw (decideRejoin_ok hs), ⟨rfl, rfl, rfl⟩, rfl, enterListen_ctr _, rfl, ⟨rfl, rfl, rfl⟩,
      fun x hx => ?_, rfl⟩⟩
  cases x <;> simp at hx <;> rfl

/-- Settles O17: RESTART is granted in every station state. -/
theorem restart : Obligations.Restart := by
  intro s hw
  refine ⟨_, exec_granted rfl hw rfl, ⟨rfl, rfl, rfl⟩, rfl, rfl, ⟨rfl, rfl, rfl⟩, fun x hx => ?_, rfl⟩
  cases x <;> simp at hx <;> rfl

/-- Settles O48: nothing waits, or the soft reset or the change of state that waits is made with the driver OFF. -/
theorem cutEndsExit : Obligations.CutEndsExit := by
  intro s
  refine ⟨fun ht => exec_cut_stay (.inl ht), fun hr he => exec_cut_stay (.inr ⟨he, hr⟩), fun ht hr => ?_,
    fun e ht hr he hs => ?_⟩
  · have hreset : finishExit (cutState s) = softResetState s := finishExit_of_reset (s := cutState s) hr
    rw [exec_cut_due ht (.inr hr), hreset, exec_softReset_waiting hr]
  · have hstop : stoppable (cutState s).stc.station = true := stoppable_active_cold (x := s.stc.station) hs.symm
    have hwait : (cutState s).waiting (some e) (cutState s).stc.softReset = cutState s := by
      rw [← he]; rfl
    have hentered : Entered e (cutState s) (finishExit (cutState s)) := by
      have h := finishExit_entered (u := cutState s) (e := e) hr (.inr hstop)
      rwa [hwait] at h
    have hoff := hentered.driver_off rfl
    exact ⟨_, exec_cut_due ht (.inl (by simp [he])), hoff, lde_off hoff, ltx_off hoff, hentered⟩

end Sys2Proof.Proofs
end

section
/-! SUPPORT. A STOPPING fault at the Station Controller, of a frame that ends where no cycle ends and of an echo that fails: in both
the station ends in SILENT, or where a change that waits leads (R53, R54, R57 to R59, R63, R65, R102). -/

namespace Sys2Proof.Machine

variable {s : State}

/-! ### One STOPPING report with the driver OFF (R58) -/

/-- From LISTEN, COLD and ACTIVE a STOPPING fault leads to SILENT. -/
theorem raise_stops_stoppable {o : Occurrence} (ht : s.lif.tx = none) (hs : stoppable s.stc.station = true)
    (h : Stops o.kind s) : raise o s = (enterSilent s).withFlt (recorded s.cfg.masks o s.flt) :=
  raiseAll_stops (os := [o]) ht hs ⟨o, List.mem_singleton_self o, h⟩

/-- In CONFIG and SILENT a fault reaches the Fault Unit alone. -/
theorem raise_unstoppable {o : Occurrence} (hs : stoppable s.stc.station = false) :
    raise o s = s.withFlt (recorded s.cfg.masks o s.flt) :=
  raiseAll_unstoppable [o] hs

/-! ### The start of a phase after the report of a frame's fault -/

/-- Where the next phase is not offered, the report is followed by nothing but a start of the skip timer (R28). -/
theorem afterReport_stands {aligned : Bool} {u : State} (hcold : u.stc.station ≠ .cold)
    (h : aligned = true → (u.ctr.table[u.ctr.p.val]?.map PhaseEntry.owner) ≠ some u.cfg.ownAddress ∨
      u.stc.station ≠ .active ∨ u.ctr.hold = true) :
    ∃ x, afterReport aligned u = u.withCtr { u.ctr with skip := x } := by
  cases aligned with
  | false => exact ⟨u.ctr.skip, if_neg hcold⟩
  | true =>
    have hstart := phaseStart_of_not_offered (h rfl)
    refine ⟨.running 2, ?_⟩
    simp only [afterReport, if_true, hstart]
    exact if_neg hcold

/-- A station that is still in COLD returns to LISTEN (R54). -/
theorem afterReport_back {aligned : Bool} {u : State} (hcold : u.stc.station = .cold) :
    afterReport aligned u = enterListen u := by
  have hstart : phaseStart u = u.withCtr { u.ctr with skip := .running 2 } :=
    phaseStart_of_not_offered (.inr (.inl (by simp [hcold])))
  cases aligned with
  | false => exact if_pos hcold
  | true =>
    simp only [afterReport, if_true, hstart]
    exact if_pos hcold

theorem afterReport_stc {aligned : Bool} {u : State} (hcold : u.stc.station ≠ .cold) :
    (afterReport aligned u).stc = u.stc := by
  unfold afterReport
  cases aligned <;> simp [hcold]

/-- The next phase as the advance inside a cycle reaches it: where it is not offered before, it is not offered after (R28, R31). -/
theorem advanced_not_offered (inside : endsCycle s = false) (ha : s.ctr.aligned = true) (hp : s.ctr.p.val < 63)
    (h : ¬ OffersNext s) :
    ((advanced s).table[(advanced s).p.val]?.map PhaseEntry.owner) ≠ some s.cfg.ownAddress ∨
      s.stc.station ≠ .active ∨ (advanced s).hold = true := by
  rw [advanced_inside inside, if_pos ha]
  show (s.ctr.table[(phaseAfter s.ctr.p).val]?.map PhaseEntry.owner) ≠ _ ∨ _ ∨ s.ctr.hold = true
  rw [phaseAfter_val hp]
  simpa [OffersNext, imp_iff_not_or] using h

/-! ### The three outcomes of a frame's fault (R54, R58) -/

section

variable {f : Gather} {outcome : FrameOutcome} {r : Flt}

@[simp] theorem beforeReport_txs : (beforeReport f outcome s).txs = s.txs := by simp [beforeReport]

/-- The fault is recorded and stops nothing, and the next phase is not offered: the station, the line and the contexts stand. -/
theorem afterReport_recorded (hcold : s.stc.station ≠ .cold)
    (h : s.ctr.aligned = true → ((advanced s).table[(advanced s).p.val]?.map PhaseEntry.owner) ≠ some s.cfg.ownAddress ∨
      s.stc.station ≠ .active ∨ (advanced s).hold = true) :
    let t := afterReport s.ctr.aligned ((beforeReport f outcome s).withFlt r)
    t.stc = s.stc ∧ t.lif = s.lif ∧ t.txs = s.txs := by
  obtain ⟨x, hx⟩ := afterReport_stands (aligned := s.ctr.aligned) (u := (beforeReport f outcome s).withFlt r)
    (by simpa using hcold) (by simpa using h)
  rw [hx]
  simp

/-- The fault stops the station: it is in SILENT when the next phase begins, so the phase is not offered (R28, R58; log 10). -/
theorem afterReport_stopped :
    let t := afterReport s.ctr.aligned ((enterSilent (beforeReport f outcome s)).withFlt r)
    t.stc.station = .silent ∧ t.stc.stationCause = true ∧ t.stc.coldAttempts = s.stc.coldAttempts ∧ t.ctr.hold = false ∧
      t.ctr.coldWait = none ∧ t.ctr.coldAlignPending = false ∧ t.lif = s.lif ∧ t.txs = contextsReturned s.txs := by
  obtain ⟨x, hx⟩ := afterReport_stands (aligned := s.ctr.aligned)
    (u := (enterSilent (beforeReport f outcome s)).withFlt r) nofun fun _ => .inr (.inl nofun)
  have hattempts : (enterSilent (beforeReport f outcome s)).stc.coldAttempts = (beforeReport f outcome s).stc.coldAttempts := rfl
  have htxs : (enterSilent (beforeReport f outcome s)).txs = contextsReturned (beforeReport f outcome s).txs := rfl
  rw [hx]
  exact ⟨rfl, rfl, by simp [hattempts], rfl, rfl, rfl, by simp, by simp [htxs]⟩

/-- A COLD station that the fault does not stop is back in LISTEN (R54). -/
theorem afterReport_listen (inside : endsCycle s = false) (hcold : s.stc.station = .cold) :
    let t := afterReport s.ctr.aligned ((beforeReport f outcome s).withFlt r)
    t.stc = { s.stc with station := .listen } ∧ t.lif = s.lif ∧ t.txs = s.txs ∧ t.ctr.aligned = false ∧
      t.ctr.coldWait = if ∃ e ∈ s.ctr.table, e.owner = s.cfg.ownAddress
                       then some (48 + 8 * s.cfg.ownAddress.val) else none := by
  have hstc (u : State) : (enterListen u).stc = { u.stc with station := .listen } := rfl
  have htable : (advanced s).table = s.ctr.table := by
    rw [advanced_inside inside]
    split <;> rfl
  rw [afterReport_back (by simpa using hcold)]
  simp only [hstc, enterListen_ctr]
  simp [htable, State.reset]

end

/-! ### The two reports of a failed echo (R53, R57; log 7) -/

/-- The state that an echo failure or the report before it leaves where the driver has gone OFF: the contexts are those of `s`
once they are returned, and an ACTIVE station keeps its alignment. -/
structure FailedFrom (s z : State) : Prop where
  parts : z = { s with lif := z.lif, ctr := z.ctr, stc := z.stc, txs := z.txs }
  driver : z.lif.tx = none
  stc : z.stc = { s.stc with station := z.stc.station, coldAttempts := z.stc.coldAttempts }
  table : z.ctr.table = s.ctr.table
  tracked : s.stc.station = .active →
    z.ctr.aligned = s.ctr.aligned ∧ z.ctr.p = s.ctr.p ∧ z.ctr.c = s.ctr.c ∧ z.ctr.whole = s.ctr.whole
  contexts : returnContexts z.txs = contextsReturned s.txs

theorem failedFrom_driverOff (s : State) : FailedFrom s (driverOff s) :=
  ⟨rfl, rfl, rfl, rfl, fun _ => ⟨rfl, rfl, rfl, rfl⟩, rfl⟩

theorem FailedFrom.cfg {z : State} (hz : FailedFrom s z) : z.cfg = s.cfg := by rw [hz.parts]

theorem FailedFrom.flt {z : State} (hz : FailedFrom s z) : z.flt = s.flt := by rw [hz.parts]

/-- A STOPPING report leads to SILENT (R58). -/
theorem FailedFrom.stopped {z : State} {o : Occurrence} (hz : FailedFrom s z) (hs : stoppable z.stc.station = true)
    (h : Stops o.kind s) : raise o z = (enterSilent z).withFlt (recorded s.cfg.masks o s.flt) := by
  rw [raise_stops_stoppable hz.driver hs (by rwa [Stops, hz.cfg]), hz.cfg, hz.flt]

/-- In SILENT the report is recorded alone (R58). -/
theorem FailedFrom.stays {z : State} (hz : FailedFrom s z) (o : Occurrence) :
    raise o (enterSilent z) = (enterSilent z).withFlt (recorded s.cfg.masks o s.flt) := by
  rw [raise_unstoppable (s := enterSilent z) rfl, enterSilent_cfg, enterSilent_flt, hz.cfg, hz.flt]

/-- A failure in ACTIVE or COLD leads to a state that a STOPPING report leaves, or to SILENT (R53, R57). -/
theorem reportFailure_failedFrom (hs : s.stc.station = .active ∨ s.stc.station = .cold) :
    ∃ z, ((reportFailure (driverOff s) = z ∧ stoppable z.stc.station = true) ∨
      reportFailure (driverOff s) = enterSilent z) ∧ FailedFrom s z := by
  refine reportFailure_induct (P := fun t => ∃ z, ((t = z ∧ stoppable z.stc.station = true) ∨ t = enterSilent z) ∧
    FailedFrom s z) (driverOff s) ?active ?fourth ?cold ?eighth ?other
  case active =>
    intro (ha : s.stc.station = .active) _
    exact ⟨_, .inl ⟨rfl, stoppable_active_cold (.inl ha)⟩, rfl, rfl, rfl, rfl, fun _ => ⟨rfl, rfl, rfl, rfl⟩, rfl⟩
  case fourth =>
    intro _ _
    exact ⟨_, .inr rfl, rfl, rfl, rfl, rfl, fun _ => ⟨rfl, rfl, rfl, rfl⟩, rfl⟩
  case cold =>
    intro (hc : s.stc.station = .cold) _
    exact ⟨_, .inl ⟨rfl, rfl⟩, rfl, rfl, rfl, rfl, fun ha => absurd (hc.symm.trans ha) nofun, rfl⟩
  case eighth =>
    intro _ _
    exact ⟨_, .inr rfl, rfl, rfl, rfl, rfl, fun _ => ⟨rfl, rfl, rfl, rfl⟩, rfl⟩
  case other =>
    intro ha hc
    exact (hs.elim ha hc).elim

/-- In both orders of the two reports the station goes to SILENT, and the fault is recorded. -/
theorem echoFailureWith_stops (stoppingFirst : Bool) (x : Transmission) (hs : s.stc.station = .active ∨ s.stc.station = .cold)
    (h : Stops .echo s) :
    ∃ z, FailedFrom s z ∧ echoFailureWith stoppingFirst x s =
      (enterSilent z).withFlt (recorded s.cfg.masks (echoOccurrence x s) s.flt) := by
  cases stoppingFirst with
  | false =>
    obtain ⟨z, ⟨he, hstop⟩ | he, hz⟩ := reportFailure_failedFrom hs
    · exact ⟨z, hz, by rw [echoFailureWith, if_neg nofun, he, hz.stopped hstop h]⟩
    · exact ⟨z, hz, by rw [echoFailureWith, if_neg nofun, he, hz.stays]⟩
  | true =>
    have hz := failedFrom_driverOff s
    have hstop : stoppable (driverOff s).stc.station = true := stoppable_active_cold (x := s.stc.station) hs
    refine ⟨driverOff s, hz, ?_⟩
    rw [echoFailureWith, if_pos rfl, hz.stopped hstop h]
    exact reportFailure_other nofun nofun

/-- Where the two reports of a failed echo leave the state: in SILENT, with the ECHO flag set (R53, R57, R58, R102). -/
structure StoppedByEcho (s v : State) : Prop where
  driver : v.lif.tx = none
  stc : v.stc = { s.stc with station := .silent, stationCause := true, coldAttempts := v.stc.coldAttempts,
                             pendingExit := s.stc.pendingExit.filter (· == .toConfig) }
  hold : v.ctr.hold = false
  coldWait : v.ctr.coldWait = none
  table : v.ctr.table = s.ctr.table
  tracked : s.stc.station = .active →
    v.ctr.aligned = s.ctr.aligned ∧ v.ctr.p = s.ctr.p ∧ v.ctr.c = s.ctr.c ∧ v.ctr.whole = s.ctr.whole
  flag : hasKind v.flt.flags .echo = true
  contexts : v.txs = contextsReturned s.txs
  rest : SameOutside [.lif, .ctr, .stc, .txs, .flt, .freeCount] s v

theorem stoppedByEcho (stoppingFirst : Bool) (x : Transmission) (n : Nat) (hs : s.stc.station = .active ∨ s.stc.station = .cold)
    (h : Stops .echo s) : StoppedByEcho s (echoFailureWith stoppingFirst x (s.withFreeCount n)) := by
  obtain ⟨z, hz, he⟩ := echoFailureWith_stops (s := s.withFreeCount n) stoppingFirst x hs h
  have hstc : (enterSilent z).stc = { s.stc with
      station := .silent, stationCause := true, coldAttempts := z.stc.coldAttempts
      pendingExit := s.stc.pendingExit.filter (· == .toConfig) } := by
    simp only [enterSilent, State.withTxs_stc, State.withStc_stc]
    rw [hz.stc]
    rfl
  have hflag : hasKind (recorded s.cfg.masks (echoOccurrence x s) s.flt).flags .echo = true :=
    (recorded_hasKind _ _ _ _).mpr (.inr ⟨h.1, rfl⟩)
  rw [he]
  refine ⟨hz.driver, hstc, rfl, rfl, hz.table, hz.tracked, hflag, hz.contexts, ?_⟩
  rw [hz.parts]
  refine ⟨fun p hp => ?_, rfl⟩
  cases p <;> simp at hp <;> rfl

theorem Transmission.not_clean {x : Transmission} (h : x.mismatch = true ∨ x.matched < x.bytes.length) : ¬ x.clean = true := by
  rw [x.clean_iff]
  rintro ⟨hm, hl⟩
  rcases h with h | h
  · rw [hm] at h; cases h
  · exact Nat.not_lt.mpr hl h

/-- A failed echo with ECHO STOPPING makes its two reports in the order of a free value; then the change that waits (log 7). -/
theorem exec_echoFailure_stops {x : Transmission} (ht : s.lif.tx = some x)
    (hx : x.mismatch = true ∨ x.matched < x.bytes.length) (h : Stops .echo s) :
    exec .echoFailure s = .next (finishExit
      (echoFailureWith (Config.stoppingReportFirst s.freeCount) x (s.withFreeCount (s.freeCount + 1)))) := by
  have hexec : exec .echoFailure s = execEchoFailure s := rfl
  have hstops : echoStops s = true := (stops_iff .echo s).mp h
  simp only [hexec, execEchoFailure, ht, if_neg (Transmission.not_clean hx), if_pos hstops]

/-- What waits for the cut has no part in the two reports. -/
theorem withoutExit_echoFailureWith (stoppingFirst : Bool) (x : Transmission) (s : State) :
    withoutExit (echoFailureWith stoppingFirst x s) = echoFailureWith stoppingFirst x (withoutExit s) := by
  have hoff : withoutExit (driverOff s) = driverOff (withoutExit s) := rfl
  cases stoppingFirst with
  | true =>
    show withoutExit (reportFailure (raise _ _)) = reportFailure (raise _ _)
    rw [withoutExit_reportFailure, withoutExit_raise _ rfl, hoff]
    rfl
  | false =>
    have htx : (reportFailure (driverOff s)).lif.tx = none := by rw [reportFailure_lif]; rfl
    show withoutExit (raise _ (reportFailure _)) = raise _ (reportFailure _)
    rw [withoutExit_raise _ htx, withoutExit_reportFailure, hoff]
    rfl

end Sys2Proof.Machine

namespace Sys2Proof.Proofs

open Sys2Proof.Machine

/-- Settles O32: the report of the fault by station state; the phase that begins reads the state that the report leaves. -/
theorem faultFrameStops : Obligations.FaultFrameStops := by
  intro f outcome kind s hends hkind hlast
  have hinside := endsCycle_eq_false hlast
  have hoff : (beforeReport f outcome s).lif.tx = none := by simpa using hends.free.1
  have hstops : Stops (frameReport f kind s).kind (beforeReport f outcome s) ↔ Stops kind s := by simp [frameReport, Stops]
  have hcalm : ¬ Stops kind s → raise (frameReport f kind s) (beforeReport f outcome s) =
      (beforeReport f outcome s).withFlt (recorded _ (frameReport f kind s) _) := fun h => raise_calm (mt hstops.mp h)
  refine ⟨_, exec_frameEnd_free hends.free, ?_⟩
  rw [endFrame_fault hends hkind, faultFrameEnd_inside hinside]
  refine ⟨fun hstop hs => ?_, fun hs => ?_, fun hstop hs => ?_, fun hstop hs => ?_, fun hstop hs => ?_⟩
  · have hst : stoppable (beforeReport f outcome s).stc.station = true := by
      rw [beforeReport_stc]
      rcases hs with hs | hs | hs <;> rw [hs] <;> rfl
    rw [raise_stops_stoppable hoff hst (hstops.mpr hstop)]
    exact afterReport_stopped
  · have hst : stoppable (beforeReport f outcome s).stc.station = false := by rw [beforeReport_stc, hs]; rfl
    rw [raise_unstoppable hst]
    exact afterReport_recorded (by simp [hs]) fun _ => .inr (.inl (by simp [hs]))
  · rw [hcalm hstop]
    refine ⟨?_, fun hp hno => ?_⟩
    · rw [afterReport_stc (by simp [hs]), State.withFlt_stc, beforeReport_stc]
    · exact (afterReport_recorded (by simp [hs]) fun ha => advanced_not_offered hinside ha hp hno).2
  · rw [hcalm hstop]
    exact afterReport_recorded (by simp [hs]) fun _ => .inr (.inl (by simp [hs]))
  · rw [hcalm hstop]
    exact afterReport_listen hinside hs

/-- Settles O47: both orders of the two reports lead to one form of the state, from which the change that waits is made. -/
theorem echoFailureStops : Obligations.EchoFailureStops := by
  intro x s ht hx hstops hs
  have hexec := exec_echoFailure_stops ht hx hstops
  have hv := stoppedByEcho (Config.stoppingReportFirst s.freeCount) x (s.freeCount + 1) hs hstops
  have hv' := withoutExit_echoFailureWith (Config.stoppingReportFirst s.freeCount) x (s.withFreeCount (s.freeCount + 1))
  generalize echoFailureWith (Config.stoppingReportFirst s.freeCount) x (s.withFreeCount (s.freeCount + 1)) = v
    at hexec hv hv'
  have hreset : v.stc.softReset = s.stc.softReset := by rw [hv.stc]
  have hexit : v.stc.pendingExit = s.stc.pendingExit.filter (· == .toConfig) := by rw [hv.stc]
  refine ⟨fun hr => ?_, fun hr => ⟨withoutExit v, ?_, ?_⟩⟩
  · have hne : v.stc.softReset ≠ .waiting := by rwa [hreset]
    by_cases he : s.stc.pendingExit = some .toConfig
    · have hconfig : v.stc.pendingExit = some .toConfig := by rw [hexit, he]; rfl
      rw [finishExit_of_toConfig hconfig hne] at hexec
      have htxs : (enterConfig v).txs = contextsReturned s.txs := by
        show returnContexts v.txs = _
        rw [hv.contexts]
        exact returnContexts_idem s.txs
      have hrxu : v.rxu = s.rxu := hv.rest.1 .rxu (by decide)
      have hdelivery : v.rxu.delivery = s.rxu.delivery := by rw [hrxu]
      exact ⟨_, hexec, rfl, rfl, rfl, rfl, hv.table, hv.flag, htxs, fun hno => absurd he hno,
        fun _ => ⟨rfl, rfl, rfl, rfl, rfl, hdelivery⟩⟩
    · have hnone : v.stc.pendingExit = none := by
        rw [hexit, Option.filter_eq_none_iff]
        exact fun e hmem hc => he (hmem.trans (congrArg some (eq_of_beq hc)))
      rw [finishExit_of_none hnone hne] at hexec
      exact ⟨v, hexec, hv.driver, hnone, hv.hold, hv.coldWait, hv.table, hv.flag, hv.contexts,
        fun _ => ⟨by rw [hv.stc], by rw [hv.stc], hv.tracked, hv.rest⟩, fun h => absurd h he⟩
  · have hnone : (withoutExit v).stc.pendingExit = none := rfl
    rw [exec_echoFailure_stops (s := withoutExit s) ht hx hstops]
    show Host.Outcome.next (finishExit (echoFailureWith _ x (withoutExit (s.withFreeCount (s.freeCount + 1))))) = _
    rw [show (withoutExit s).freeCount = s.freeCount from rfl, ← hv', finishExit_of_none hnone (withoutExit_softReset_ne v)]
  · rw [hexec, finishExit_of_reset (by rw [hreset, hr]), exec_softReset_waiting (s := resetWaiting _) rfl]
    rfl

end Sys2Proof.Proofs
end

section
/-! SUPPORT. The records, the contexts and the frame in flight over each operation of the Transmit Scheduler (R69 to R79, R85, R86,
R92 to R102). -/

namespace Sys2Proof.Machine

variable {s t : State}

/-! ### What each promise speaks of -/

theorem TransmitInv.congr (h : TransmitInv s) (queues : t.txs.queues = s.txs.queues) (free : t.txs.free = s.txs.free) :
    TransmitInv t where
  pool := by rw [TxPoolWhole, messages_congr queues, free]; exact h.pool
  queues := by rw [QueuesBounded, queues]; exact h.queues
  tags := by rw [TagsDistinct, messages_congr queues]; exact h.tags
  placed := by rw [RecordsPlaced, queues]; exact h.placed

theorem ContextsOrdered.congr (h : ContextsOrdered s) (queues : t.txs.queues = s.txs.queues)
    (contexts : contexts t.txs = contexts s.txs) (stack : t.txs.stack.length ≤ s.txs.stack.length) : ContextsOrdered t := by
  obtain ⟨ms, htags, hheads, hsorted, hall, hstack⟩ := h
  refine ⟨ms, htags.trans contexts.symm, ?_, hsorted, ?_, stack.trans hstack⟩
  · rw [queues]; exact hheads
  · rw [messages_congr queues]; exact hall

/-- With no frame in flight the records and the contexts are all that is promised. -/
theorem contextInv_of_landed (records : TransmitInv s) (ordered : ContextsOrdered s) (landed : s.txs.inFlight = none) :
    ContextInv s where
  records := records
  ordered := ordered
  follows _ _ _ hf := by rw [landed] at hf; cases hf
  onLine hf := by rw [landed] at hf; cases hf

/-- The staging area, the completion queue and the message numbers have no part in the contexts; a frame in flight stays on the
line. -/
theorem ContextInv.congr (h : ContextInv s)
    (txs : t.txs = { s.txs with staging := t.txs.staging, completions := t.txs.completions })
    (driver : s.lif.tx.isSome → t.lif.tx.isSome) (station : s.stc.station = .active → t.stc.station = .active) :
    ContextInv t where
  records := h.records.congr (by rw [txs]) (by rw [txs])
  ordered := h.ordered.congr (by rw [txs]) (by rw [txs]; rfl) (by rw [txs])
  follows := by
    rw [FlightFollows, txs]
    exact h.follows
  onLine := by
    rw [FlightOnLine, txs]
    exact fun hf => ⟨driver (h.onLine hf).1, station (h.onLine hf).2⟩

/-- The frame in flight ends without progress (R100, R101). -/
theorem ContextInv.land (h : ContextInv s) (txs : t.txs = { s.txs with inFlight := none }) : ContextInv t :=
  contextInv_of_landed (h.records.congr (by rw [txs]) (by rw [txs]))
    (h.ordered.congr (by rw [txs]) (by rw [txs]; rfl) (by rw [txs])) (by rw [txs])

/-- Outside ACTIVE no frame is in flight (R98). -/
theorem ContextInv.inFlight_none_of_station (h : ContextInv s) (hs : s.stc.station ≠ .active) : s.txs.inFlight = none := by
  cases hf : s.txs.inFlight with
  | none => rfl
  | some x => exact absurd (h.onLine (by rw [hf]; rfl)).2 hs

/-- With no frame in flight the driver and the station have no part in the contexts. -/
theorem ContextInv.of_txs (h : ContextInv s) (landed : s.txs.inFlight = none) (txs : t.txs = s.txs) : ContextInv t :=
  h.land (by rw [txs, ← landed])

/-! ### Records changed in place -/

/-- A change of a record that leaves its tag, its class, its length and its pool blocks. -/
structure KeepsRecord (g : Message → Message) : Prop where
  tag : ∀ m, (g m).tag = m.tag
  cls : ∀ m, (g m).cls = m.cls
  length : ∀ m, (g m).length = m.length
  blocks : ∀ m, (g m).blocks = m.blocks

theorem messages_map {x y : Txs} {g : Message → Message} (queues : y.queues = x.queues.map fun q => q.map g) :
    messages y = (messages x).map g :=
  (messages_congr queues).trans (messages_mapQueues x g)

/-- Records changed in place stand where they stood, with their tags and their pool blocks. -/
theorem TransmitInv.map (h : TransmitInv s) {g : Message → Message} (hg : KeepsRecord g)
    (queues : t.txs.queues = s.txs.queues.map fun q => q.map g) (free : t.txs.free = s.txs.free) : TransmitInv t where
  pool := by
    have hheld : Message.held ∘ g = Message.held := funext fun m => congrArg List.length (hg.blocks m)
    rw [TxPoolWhole, messages_map queues, List.map_map, hheld, free]
    exact h.pool
  queues k := by
    rw [queues]
    simpa using h.queues k
  tags := by
    rw [TagsDistinct, messages_map queues, List.map_map, show Message.tag ∘ g = Message.tag from funext hg.tag]
    exact h.tags
  placed k m hm := by
    rw [queues] at hm
    obtain ⟨y, hy, rfl⟩ := List.mem_map.mp (by simpa using hm)
    obtain ⟨hcls, hblocks⟩ := h.placed k y hy
    exact ⟨(hg.cls y).trans hcls, by rw [hg.blocks, hg.length]; exact hblocks⟩

/-- Changes in place that neither start a record nor return one keep the order of the contexts. -/
theorem ContextsOrdered.map (h : ContextsOrdered s) {g : Message → Message} (hg : KeepsRecord g)
    (hstarted : ∀ m ∈ messages s.txs, (g m).isStarted = m.isStarted)
    (queues : t.txs.queues = s.txs.queues.map fun q => q.map g) (contexts : contexts t.txs = contexts s.txs)
    (stack : t.txs.stack = s.txs.stack) : ContextsOrdered t := by
  obtain ⟨ms, htags, hheads, hsorted, hall, hstack⟩ := h
  refine ⟨ms.map g, ?_, fun m hm => ?_, ?_, fun m hm hs => ?_, by rw [stack]; exact hstack⟩
  · rw [List.map_map, show Message.tag ∘ g = Message.tag from funext hg.tag, contexts]
    exact htags
  · obtain ⟨y, hy, rfl⟩ := List.mem_map.mp hm
    obtain ⟨hhead, hs⟩ := hheads y hy
    refine ⟨?_, (hstarted y (mem_messages.mpr ⟨_, List.mem_of_head? hhead⟩)).trans hs⟩
    simp only [hg.cls, queues, Fin.getElem_fin, Vector.getElem_map, List.head?_map]
    exact congrArg (Option.map g) hhead
  · rw [List.map_map, show Message.cls ∘ g = Message.cls from funext hg.cls]
    exact hsorted
  · rw [messages_map queues] at hm
    obtain ⟨y, hy, rfl⟩ := List.mem_map.mp hm
    exact List.mem_map_of_mem (hall y hy ((hstarted y hy).symm.trans hs))

theorem returned_keepsRecord : KeepsRecord Message.returned := ⟨fun _ => rfl, fun _ => rfl, fun _ => rfl, fun _ => rfl⟩

/-- The contexts returned: no record is STARTED, and no frame is in flight (R101 to R103). -/
theorem TransmitInv.returnContexts (h : TransmitInv s) (txs : t.txs = returnContexts s.txs) : ContextInv t := by
  refine contextInv_of_landed (h.map returned_keepsRecord (by rw [txs]; rfl) (by rw [txs]; rfl)) ?_ (by rw [txs]; rfl)
  refine ⟨[], by rw [txs]; rfl, nofun, .nil, fun m hm hs => ?_, by rw [txs]; exact Nat.zero_le 3⟩
  rw [txs, messages_returnContexts] at hm
  obtain ⟨y, -, rfl⟩ := List.mem_map.mp hm
  cases hs

/-! ### A record that leaves (R71, R79) -/

theorem messages_filter {x y : Txs} {p : Message → Bool} (queues : y.queues = x.queues.map fun q => q.filter p) :
    messages y = (messages x).filter p :=
  (messages_congr queues).trans (messages_filterQueues x p)

theorem depart_queue (m : Message) (outcome : SendOutcome) (x : Txs) (k : Cls) :
    (depart m outcome x).queues[k] = x.queues[k].filter fun y => y.tag != m.tag := by
  simp [depart]

theorem head?_filter_of_head? {α : Type} {l : List α} {a : α} {p : α → Bool} (h : l.head? = some a) (ha : p a = true) :
    (l.filter p).head? = some a := by
  rw [(List.cons_head?_tail h).symm, List.filter_cons_of_pos ha]
  rfl

theorem TransmitInv.depart (h : TransmitInv s) {m : Message} {outcome : SendOutcome}
    (queues : t.txs.queues = (depart m outcome s.txs).queues) (free : t.txs.free = (depart m outcome s.txs).free) :
    TransmitInv t where
  pool := by
    rw [TxPoolWhole, messages_congr queues, free, depart_blocks]
    exact h.pool
  queues k := by
    rw [queues, depart_queue]
    exact (List.length_filter_le _ _).trans (h.queues k)
  tags := by
    rw [TagsDistinct, messages_congr queues, messages_depart]
    exact h.tags.sublist (List.filter_sublist.map _)
  placed k x hx := by
    rw [queues, depart_queue] at hx
    exact h.placed k x (List.mem_of_mem_filter hx)

/-- The record of a tag leaves with its context; the other contexts stay in order. -/
theorem ContextsOrdered.depart (h : ContextsOrdered s) {m : Message} {outcome : SendOutcome}
    (queues : t.txs.queues = (depart m outcome s.txs).queues)
    (left : contexts t.txs = (contexts s.txs).filter fun x => x != m.tag)
    (stack : t.txs.stack.length ≤ s.txs.stack.length) : ContextsOrdered t := by
  obtain ⟨ms, htags, hheads, hsorted, hall, hstack⟩ := h
  refine ⟨ms.filter fun x => x.tag != m.tag, ?_, fun x hx => ?_, ?_, fun x hx hs => ?_, stack.trans hstack⟩
  · rw [left, ← htags, List.filter_map]
    rfl
  · obtain ⟨hmem, hne⟩ := List.mem_filter.mp hx
    obtain ⟨hhead, hstarted⟩ := hheads x hmem
    refine ⟨?_, hstarted⟩
    rw [queues, depart_queue]
    exact head?_filter_of_head? hhead hne
  · exact hsorted.sublist (List.filter_sublist.map _)
  · rw [messages_congr queues, messages_depart] at hx
    obtain ⟨hmem, hne⟩ := List.mem_filter.mp hx
    exact List.mem_filter.mpr ⟨hall x hmem hs, hne⟩

end Sys2Proof.Machine
end

section
/-! SUPPORT. The Transmit Scheduler's operations keep the contexts in order: WITHDRAW, SUBMIT, ECHO CLEAN and the selection of an own
phase (R69, R76, R87 to R99). -/

namespace Sys2Proof.Machine

variable {s t : State}

/-! ### A withdrawn message (R76, R77) -/

theorem onLine_iff (tag : Tag) (x : Txs) :
    onLine tag x = true ↔ ∃ index last, x.inFlight = some (.data tag index last) := by
  unfold onLine
  split
  · next y index last hf =>
    rw [hf, beq_iff_eq]
    exact ⟨fun h => ⟨index, last, by rw [h]⟩, fun ⟨_, _, h⟩ => by cases h; rfl⟩
  · next hf =>
    exact ⟨nofun, fun ⟨index, last, h⟩ => absurd h (hf tag index last)⟩

theorem contexts_withdrawMessage (m : Message) (x : Txs) :
    contexts (withdrawMessage m x) = (contexts x).filter fun tag => tag != m.tag := by
  show (x.current.filter _).toList ++ x.stack.filter _ = (x.current.toList ++ x.stack).filter _
  rw [List.filter_append]
  congr 1
  cases x.current with
  | none => rfl
  | some tag => by_cases h : tag = m.tag <;> simp [h]

/-- A message of which no segment is on the line is withdrawn. -/
theorem ContextInv.withdraw (h : ContextInv s) {m : Message} (hline : Machine.onLine m.tag s.txs = false)
    (txs : t.txs = withdrawMessage m s.txs) (lif : t.lif = s.lif) (stc : t.stc = s.stc) : ContextInv t where
  records := h.records.depart (m := m) (outcome := .withdrawn) (by rw [txs]; rfl) (by rw [txs]; rfl)
  ordered := by
    refine h.ordered.depart (m := m) (outcome := .withdrawn) (by rw [txs]; rfl) ?_ ?_
    · rw [txs, contexts_withdrawMessage]
    · rw [txs]; exact List.length_filter_le _ _
  follows tag index last hf := by
    have hfs : s.txs.inFlight = some (.data tag index last) := by rw [txs] at hf; exact hf
    have hne : tag ≠ m.tag := by
      rintro rfl
      rw [(onLine_iff _ _).mpr ⟨index, last, hfs⟩] at hline
      cases hline
    obtain ⟨hcurrent, y, hfind, hsent, hstarted, hlast⟩ := h.follows tag index last hfs
    obtain ⟨hmem, rfl⟩ := findMessage_some hfind
    refine ⟨?_, y, ?_, hsent, hstarted, hlast⟩
    · rw [txs]
      show s.txs.current.filter _ = _
      rw [hcurrent, Option.filter_some, if_pos (by simpa using hne)]
    · have hmessages : messages t.txs = (messages s.txs).filter fun x => x.tag != m.tag := by
        rw [txs, ← messages_depart m .withdrawn]; rfl
      refine findMessage_of_mem ?_ ?_
      · rw [hmessages]; exact h.records.tags.sublist (List.filter_sublist.map _)
      · rw [hmessages]; exact List.mem_filter.mpr ⟨hmem, by simpa using hne⟩
  onLine := by rw [FlightOnLine, txs, lif, stc]; exact h.onLine

/-! ### A submitted message (R69) -/

/-- A record stored at the tail of its queue is one record more. -/
theorem messages_store (m : Message) (x : Txs) : (messages (store m x)).Perm (m :: messages x) := by
  have hset : ∀ (l : List (List Message)) (k : Nat) (hk : k < l.length), (l.set k (l[k] ++ [m])).flatten.Perm (m :: l.flatten) := by
    intro l
    induction l with
    | nil => intro k hk; cases hk
    | cons q qs ih =>
      intro k hk
      cases k with
      | zero => simp
      | succ k => simpa using ((ih k (by simpa using hk)).append_left q).trans List.perm_middle
  have := hset x.queues.toList m.cls (by simp)
  simp only [messages, store, Vector.toList_set]
  simpa using this

theorem store_queue (m : Message) (x : Txs) (k : Cls) :
    (store m x).queues[k] = if k = m.cls then x.queues[k] ++ [m] else x.queues[k] := by
  by_cases hk : k = m.cls
  · subst hk; simp [store]
  · have hne : m.cls.val ≠ k.val := fun h => hk (Fin.ext h.symm)
    simp [store, hk, Vector.getElem_set_ne _ _ hne]

/-- A QUEUED record of a new tag, with room in its queue and in the pool, joins the tail of its queue. -/
theorem ContextInv.store (h : ContextInv s) {m : Message} (hnew : findMessage m.tag s.txs = none)
    (hroom : s.txs.queues[m.cls].length < 8) (hpool : m.held ≤ s.txs.free) (hblocks : m.held = segmentCount m.length)
    (hqueued : m.isStarted = false)
    (txs : t.txs = store m s.txs) (lif : t.lif = s.lif) (stc : t.stc = s.stc) : ContextInv t := by
  have hperm : (messages t.txs).Perm (m :: messages s.txs) := by rw [txs]; exact messages_store m s.txs
  have hqueue : ∀ k : Cls, t.txs.queues[k] = if k = m.cls then s.txs.queues[k] ++ [m] else s.txs.queues[k] := by
    intro k; rw [txs]; exact store_queue m s.txs k
  have htags : TagsDistinct t := by
    refine (hperm.map Message.tag).nodup_iff.mpr (List.nodup_cons.mpr ⟨fun hmem => ?_, h.records.tags⟩)
    obtain ⟨y, hy, htag⟩ := List.mem_map.mp hmem
    obtain ⟨j, hj⟩ := mem_messages.mp hy
    exact findMessage_none.mp hnew j y hj htag
  refine ⟨⟨?_, fun k => ?_, htags, fun k x hx => ?_⟩, ?_, fun tag index last hf => ?_, ?_⟩
  · have hsum := ((hperm.map Message.held).sum_nat)
    have hold : s.txs.free + _ = 64 := h.records.pool
    have hfree : t.txs.free = s.txs.free - m.held := by rw [txs]; rfl
    rw [List.map_cons, List.sum_cons] at hsum
    rw [TxPoolWhole, hsum, hfree]
    omega
  · rw [hqueue]
    split
    · next hk => subst hk; simpa using hroom
    · exact h.records.queues k
  · rw [hqueue] at hx
    split at hx
    · next hk =>
      rcases List.mem_append.mp hx with hx | hx
      · exact h.records.placed k x hx
      · rw [List.mem_singleton.mp hx]
        exact ⟨hk.symm, hblocks⟩
    · exact h.records.placed k x hx
  · obtain ⟨ms, hms, hheads, hsorted, hall, hstack⟩ := h.ordered
    refine ⟨ms, by rw [hms, txs]; rfl, fun x hx => ⟨?_, (hheads x hx).2⟩, hsorted, fun x hx hs => ?_, by rw [txs]; exact hstack⟩
    · have hhead := (hheads x hx).1
      rw [hqueue]
      split
      · rw [List.head?_append, hhead]; rfl
      · exact hhead
    · rcases List.mem_cons.mp (hperm.mem_iff.mp hx) with rfl | hx
      · rw [hqueued] at hs; cases hs
      · exact hall x hx hs
  · have hfs : s.txs.inFlight = some (.data tag index last) := by rw [txs] at hf; exact hf
    obtain ⟨hcurrent, y, hfind, hy⟩ := h.follows tag index last hfs
    obtain ⟨hmem, rfl⟩ := findMessage_some hfind
    exact ⟨by rw [txs]; exact hcurrent, y, findMessage_of_mem htags (hperm.mem_iff.mpr (List.mem_cons_of_mem _ hmem)), hy⟩
  · rw [FlightOnLine, txs, lif, stc]
    exact h.onLine

/-! ### A frame that has been sent (R99) -/

/-- No message has two contexts (R85). -/
theorem ContextInv.contexts_nodup (h : ContextInv s) : (contexts s.txs).Nodup := by
  obtain ⟨ms, htags, hheads, hsorted, -, -⟩ := h.ordered
  have hmem : ∀ x ∈ ms, x ∈ messages s.txs := fun x hx => mem_messages.mpr ⟨_, List.mem_of_head? (hheads x hx).1⟩
  rw [← htags]
  exact (List.Nodup.of_map _ (hsorted.imp ne_of_lt)).map_on fun x hx y hy he =>
    eq_of_tag h.records.tags (hmem y hy) (hmem x hx) he

/-- The record of a tag with one segment more sent, as ECHO CLEAN leaves it. -/
def countSegment (tag : Tag) (sent : Nat) (y : Message) : Message :=
  if y.tag = tag then { y with state := .started (y.number.getD 0) sent } else y

theorem countSegment_keepsRecord (tag : Tag) (sent : Nat) : KeepsRecord (countSegment tag sent) := by
  constructor <;> intro m <;> unfold countSegment <;> split <;> rfl

/-- ECHO CLEAN counts the segment in flight, or ends its message; the contexts stay in order. -/
theorem ContextInv.txsEchoClean (h : ContextInv s) (txs : t.txs = txsEchoClean s.txs) : ContextInv t := by
  have landed : t.txs.inFlight = none := by rw [txs]; exact (txsEchoClean_kept s.txs).1
  cases hf : s.txs.inFlight with
  | none => exact h.land (txs.trans (txsEchoClean_fill (.inl hf)))
  | some x =>
    cases x with
    | fill => exact h.land (txs.trans (txsEchoClean_fill (.inr hf)))
    | data tag index last =>
      obtain ⟨hcurrent, m, hfind, hsent, hstarted, -⟩ := h.follows tag index last hf
      obtain ⟨hmem, rfl⟩ := findMessage_some hfind
      cases last with
      | false =>
        rw [txsEchoClean_segment h.records.tags hf hmem hstarted hsent] at txs
        have hqueues : t.txs.queues = s.txs.queues.map fun q => q.map (countSegment m.tag (index + 1)) := by rw [txs]; rfl
        have hkeeps := countSegment_keepsRecord m.tag (index + 1)
        refine contextInv_of_landed (h.records.map hkeeps hqueues (by rw [txs]))
          (h.ordered.map hkeeps (fun y hy => ?_) hqueues (by rw [txs]; rfl) (by rw [txs])) landed
        unfold countSegment
        split
        · next htag => rw [eq_of_tag h.records.tags hmem hy htag, hstarted]; rfl
        · rfl
      | true =>
        have htags := h.records.tags
        rw [txsEchoClean_last htags hf hmem] at txs
        refine contextInv_of_landed (h.records.depart (m := m) (outcome := .sent) (by rw [txs]; rfl) ?_)
          (h.ordered.depart (m := m) (outcome := .sent) (by rw [txs]; rfl) ?_ (by rw [txs])) landed
        · rw [txs, Machine.depart, filter_tag htags hmem]
          simp [Message.held]
        · have hcons : contexts s.txs = m.tag :: s.txs.stack := by rw [contexts, hcurrent]; rfl
          have hfresh : m.tag ∉ s.txs.stack := (List.nodup_cons.mp (hcons ▸ h.contexts_nodup)).1
          rw [hcons, List.filter_cons_of_neg (by simp), List.filter_eq_self.mpr, txs]
          · rfl
          · exact fun tag ht => by simpa using fun he : tag = m.tag => hfresh (he ▸ ht)

end Sys2Proof.Machine
end

section
/-! SUPPORT. The selection of an own phase keeps the contexts in order, and so does the frame that it requests (R87 to R98). -/

namespace Sys2Proof.Machine

variable {s t : State}

/-! ### The candidate (R88) -/

/-- A candidate is the head of its class queue, and no class of higher priority holds a record. -/
theorem candidate_some {floor : Cls} {x : Txs} {m : Message} (h : candidate floor x = some m) :
    ∃ k : Cls, k ≤ floor ∧ x.queues[k].head? = some m ∧ ∀ j : Cls, j < k → x.queues[j] = [] := by
  have hne : candidate floor x ≠ none := by rw [h]; exact nofun
  obtain ⟨j, hj, hjne⟩ : ∃ j : Cls, j ≤ floor ∧ x.queues[j] ≠ [] := by
    by_contra hall
    exact hne (candidate_none.mpr fun k hk => by_contra fun hq => hall ⟨k, hk, hq⟩)
  obtain ⟨k, hk, hmin⟩ := WellFounded.has_min wellFounded_lt {j : Cls | j ≤ floor ∧ x.queues[j] ≠ []} ⟨j, hj, hjne⟩
  have hempty : ∀ j : Cls, j < k → x.queues[j] = [] := fun j hlt =>
    by_contra fun hq => hmin j ⟨hlt.le.trans hk.1, hq⟩ hlt
  obtain ⟨y, hy⟩ := Option.ne_none_iff_exists'.mp (mt List.head?_eq_none_iff.mp hk.2)
  have hym : y = m := Option.some.inj ((candidate_head hk.1 hy hempty).symm.trans h)
  exact ⟨k, hk.1, hym ▸ hy, hempty⟩

/-! ### The contexts settled (R92 to R94) -/

/-- A message started, as its record takes its number (R93). -/
def startRecord (tag : Tag) (number : MsgNo) (y : Message) : Message :=
  if y.tag == tag then { y with state := .started number 0 } else y

theorem startRecord_keepsRecord (tag : Tag) (number : MsgNo) : KeepsRecord (startRecord tag number) := by
  constructor <;> intro m <;> unfold startRecord <;> split <;> rfl

section

variable {m : Message} {k : Cls} (h : ContextInv s) (hm : s.txs.queues[k].head? = some m)
  (hj : ∀ j : Cls, j < k → s.txs.queues[j] = [])
include h hm hj

omit h in
/-- A QUEUED candidate comes before every context, whose classes leave a place on the stack (R85, R86). -/
theorem before_contexts (hqueued : m.isStarted = false) {ms : List Message}
    (hheads : ∀ x ∈ ms, s.txs.queues[x.cls].head? = some x ∧ x.isStarted) : ∀ x ∈ ms, k < x.cls := by
  intro x hx
  obtain ⟨hhead, hstarted⟩ := hheads x hx
  refine lt_of_le_of_ne (not_lt.mp fun hlt => ?_) ?_
  · rw [hj x.cls hlt] at hhead; cases hhead
  · rintro rfl
    rw [Option.some.inj (hm.symm.trans hhead), hstarted] at hqueued
    cases hqueued

/-- A QUEUED candidate is started, and the current context is pushed. -/
theorem ContextInv.start (hqueued : m.isStarted = false) (landed : t.txs.inFlight = none)
    (txs : t.txs = { startMessage m { s.txs with stack := contexts s.txs } with inFlight := t.txs.inFlight }) :
    ContextInv t := by
  obtain rfl : m.cls = k := h.head_cls hm
  have hkeeps := startRecord_keepsRecord m.tag s.txs.numbers[m.cls]
  have hqueues : t.txs.queues = s.txs.queues.map fun q => q.map (startRecord m.tag s.txs.numbers[m.cls]) := by rw [txs]; rfl
  obtain ⟨ms, htags, hheads, hsorted, hall, -⟩ := h.ordered
  have hbefore := before_contexts hm hj hqueued hheads
  have hfixed : ∀ x ∈ messages s.txs, x ≠ m → startRecord m.tag s.txs.numbers[m.cls] x = x := fun x hx hne =>
    if_neg (by simpa using fun htag => hne (eq_of_tag h.records.tags (head_mem_messages hm) hx htag))
  have hself : startRecord m.tag s.txs.numbers[m.cls] m = { m with state := .started s.txs.numbers[m.cls] 0 } :=
    if_pos (by simp)
  have hsorted' : ((startRecord m.tag s.txs.numbers[m.cls] m :: ms).map Message.cls).Pairwise (· < ·) := by
    refine List.pairwise_cons.mpr ⟨fun c hc => ?_, hsorted⟩
    obtain ⟨x, hx, rfl⟩ := List.mem_map.mp hc
    rw [hkeeps.cls]
    exact hbefore x hx
  refine contextInv_of_landed (h.records.map hkeeps hqueues (by rw [txs]; rfl))
    ⟨startRecord m.tag s.txs.numbers[m.cls] m :: ms, ?_, fun x hx => ?_, hsorted', fun x hx hs => ?_, ?_⟩ landed
  · rw [txs, List.map_cons, htags, hkeeps.tag]
    rfl
  · have hqueue : ∀ j : Cls, t.txs.queues[j].head? = s.txs.queues[j].head?.map (startRecord m.tag s.txs.numbers[m.cls]) := by
      intro j; rw [hqueues]; simp
    rcases List.mem_cons.mp hx with rfl | hx
    · rw [hqueue, hkeeps.cls, hm]
      exact ⟨rfl, by rw [hself]; rfl⟩
    · obtain ⟨hhead, hstarted⟩ := hheads x hx
      refine ⟨?_, hstarted⟩
      have hne : x ≠ m := by rintro rfl; rw [hqueued] at hstarted; cases hstarted
      rw [hqueue, hhead, Option.map_some, hfixed x (mem_messages.mpr ⟨_, List.mem_of_head? hhead⟩) hne]
  · rw [messages_map hqueues] at hx
    obtain ⟨y, hy, rfl⟩ := List.mem_map.mp hx
    by_cases hym : y = m
    · rw [hym]; exact List.mem_cons_self
    · rw [hfixed y hy hym] at hs ⊢
      exact List.mem_cons_of_mem _ (hall y hy hs)
  · have hcard := List.Nodup.length_le_card (hsorted'.imp ne_of_lt)
    have hlength : t.txs.stack.length = ms.length := by
      rw [txs, ← List.length_map (f := Message.tag) (as := ms), htags]
      rfl
    rw [List.length_map, List.length_cons, Fintype.card_fin] at hcard
    omega

/-- The contexts that a selection settles are in order. -/
theorem ContextInv.settle (landed : s.txs.inFlight = none) (txs : t.txs = settleContexts m s.txs) : ContextInv t := by
  have hlanded : t.txs.inFlight = none := by rw [txs, (settleContexts_kept m s.txs).1]; exact landed
  by_cases hstarted : m.isStarted = true
  · obtain ⟨heq, hcontext⟩ := settleContexts_first (h.first_context hm hstarted hj)
    rw [heq] at txs
    refine contextInv_of_landed (h.records.congr (by rw [txs]) (by rw [txs])) ?_ hlanded
    refine h.ordered.congr (by rw [txs]) ?_ ?_
    · rcases hcontext with hc | ⟨hc, hs⟩
      · simp [txs, contexts, hc]
      · simp [txs, contexts, hc, List.cons_head?_tail hs]
    · rw [txs]
      show (if _ then _ else _ : List Tag).length ≤ _
      split
      · exact le_rfl
      · exact (List.length_tail ..).trans_le (Nat.sub_le _ _)
  · have hqueued : m.isStarted = false := Bool.not_eq_true _ ▸ hstarted
    rw [settleContexts_new (h.not_context hm hqueued)] at txs
    exact h.start hm hj hqueued hlanded (txs.trans (by rw [hlanded, ← landed]; rfl))

end

/-! ### The selection and its request (R87 to R98) -/

/-- A request can be made: a DATA frame is the next segment of the current message. -/
def Requestable (r : FrameRequest) (x : Txs) : Prop :=
  ∀ tag index last, r = .data tag index last →
    x.current = some tag ∧ ∃ m, findMessage tag x = some m ∧ m.sent = index ∧ m.isStarted ∧ last = isLast m index

theorem requestable_fill (x : Txs) : Requestable .fill x := nofun

/-- The request of a settled candidate is for its next segment, or for FILL under the last-segment hold (R92, R95). -/
theorem requestable_requestFor {m : Message} {k : Cls} (h : ContextInv s) (hm : s.txs.queues[k].head? = some m)
    (hj : ∀ j : Cls, j < k → s.txs.queues[j] = []) :
    Requestable (requestFor m (settleContexts m s.txs)) (settleContexts m s.txs) := by
  intro tag index last hr
  unfold requestFor at hr
  split at hr
  · cases hr
  · cases hr
    have hsettled := settled_settleContexts (t := s.withTxs (settleContexts m s.txs)) h hm hj rfl
    exact ⟨hsettled.current, _, findMessage_settleContexts h hm hj, rfl, rfl, rfl⟩

/-- A selection with no frame in flight keeps the contexts in order, and its request can be made (R87 to R95). -/
theorem ContextInv.select {n : Nat} {floor : Cls} (h : ContextInv s) (landed : s.txs.inFlight = none) :
    ContextInv (select n floor s).1 ∧ (select n floor s).1.txs.inFlight = none ∧
      Requestable (Machine.select n floor s).2 (Machine.select n floor s).1.txs := by
  induction n generalizing s with
  | zero => exact ⟨h, landed, requestable_fill _⟩
  | succ n ih =>
    unfold Machine.select
    split
    · exact ⟨h, landed, requestable_fill _⟩
    · next m hcandidate =>
      obtain ⟨k, -, hm, hj⟩ := candidate_some hcandidate
      split_ifs with hu
      · exact ⟨h, landed, requestable_fill _⟩
      · have hqueued : m.isStarted = false := Unreachable.isStarted ((unreachable_iff rfl fun _ => rfl).mp hu)
        exact ih ((h.withoutMessage hm hqueued landed).of_txs landed (withoutMessage_txs h hm).symm) landed
      · exact ⟨h.settle hm hj landed rfl, (settleContexts_kept m s.txs).1.trans landed, requestable_requestFor h hm hj⟩

/-- In ACTIVE a request that can be made puts its frame in flight, on the line (R97, R98). -/
theorem ContextInv.sendRequest {r : FrameRequest} (h : ContextInv s) (hactive : s.stc.station = .active)
    (hr : Requestable r s.txs) : ContextInv (sendRequest r s) := by
  unfold Machine.sendRequest
  split
  · cases r with
    | fill =>
      exact ⟨h.records.congr rfl rfl, h.ordered.congr rfl rfl le_rfl, nofun, fun _ => ⟨rfl, hactive⟩⟩
    | data tag index last =>
      simp only
      split
      · exact ⟨h.records.congr rfl rfl, h.ordered.congr rfl rfl le_rfl,
          fun _ _ _ hf => by cases hf; exact hr tag index last rfl, fun _ => ⟨rfl, hactive⟩⟩
      · exact h
  · exact h

/-- A phase that begins with no frame in flight keeps the contexts in order (R28, R87). -/
theorem ContextInv.phaseStart (h : ContextInv s) (landed : s.txs.inFlight = none) : ContextInv (phaseStart s) := by
  rcases phaseStart_cases s with ⟨e, -, -, hactive, -, he⟩ | ⟨-, he⟩
  · rw [he]
    have hskip : ContextInv (s.withCtr { s.ctr with skip := .running 2 }) := h.of_txs landed rfl
    obtain ⟨hs, -, hr⟩ := hskip.select (n := (messages s.txs).length + 1) (floor := e.floor) landed
    exact hs.sendRequest (by rw [select_stc]; exact hactive) hr
  · rw [he]; exact h.of_txs landed rfl

end Sys2Proof.Machine
end

section
/-! SUPPORT. The contexts over the entries to each station state, the faults, the phase ends and the frame ends (R45, R58, R101 to
R103). -/

namespace Sys2Proof.Machine

variable {s t : State}

/-! ### Changes of the station (R45, R101, R102) -/

section

variable (h : ContextInv s)
include h

theorem ContextInv.enterSilent : ContextInv (enterSilent s) := h.records.returnContexts rfl

theorem ContextInv.enterConfig : ContextInv (enterConfig s) := h.records.returnContexts rfl

theorem ContextInv.enterActive : ContextInv (enterActive s) := h.congr rfl id fun _ => rfl

/-- LISTEN is entered from states in which no frame is in flight. -/
theorem ContextInv.enterListen (hs : s.stc.station ≠ .active) : ContextInv (enterListen s) :=
  h.of_txs (h.inFlight_none_of_station hs) rfl

omit h in
/-- The full reset values of the Transmit Scheduler (R83). -/
theorem contextInv_of_reset (txs : t.txs = State.reset.txs) : ContextInv t := by
  have hmessages : messages t.txs = [] := by rw [txs]; decide
  have hqueues : ∀ k : Cls, t.txs.queues[k] = [] := by rw [txs]; decide
  refine contextInv_of_landed ⟨?_, fun k => ?_, ?_, fun k m hm => ?_⟩ ⟨[], ?_, nofun, .nil, ?_, ?_⟩ (by rw [txs]; rfl)
  · rw [TxPoolWhole, hmessages, txs]; rfl
  · rw [hqueues]; exact Nat.zero_le 8
  · rw [TagsDistinct, hmessages]; exact List.nodup_nil
  · rw [hqueues] at hm; cases hm
  · rw [txs]; rfl
  · rw [hmessages]; exact nofun
  · rw [txs]; exact Nat.zero_le 3

theorem ContextInv.finishExit : ContextInv (finishExit s) := by
  unfold Machine.finishExit
  split
  · exact contextInv_of_reset rfl
  · split
    · exact h
    · exact h.enterConfig
    · split
      · exact h.enterSilent
      · exact h.congr rfl id id

/-! ### Faults (R58, R59) -/

theorem ContextInv.stoppingReport : ContextInv (stoppingReport s) := by
  unfold Machine.stoppingReport
  split_ifs
  · exact h.congr rfl id id
  · exact h.enterSilent
  · exact h

theorem ContextInv.raise (o : Occurrence) : ContextInv (raise o s) := by
  by_cases hs : Stops o.kind s
  · rw [raise_stops hs]; exact ContextInv.stoppingReport (h.congr rfl id id)
  · rw [raise_calm hs]; exact h.congr rfl id id

end

/-! ### The end of a phase -/

/-- The contexts in order before a phase begins: the driver is OFF. -/
def ContextsBefore (s : State) : Prop := ContextInv s ∧ s.lif.tx = none

/-- The contexts in order after a phase end, which has started a frame only where it has started the skip timer (R28). -/
def ContextsAfter (s : State) : Prop := ContextInv s ∧ (s.lif.tx = none ∨ s.ctr.skip ≠ .awaitingSample)

theorem contextsBefore_standsOverTasks : StandsOverTasks ContextsBefore where
  report o s h := ⟨h.1.raise o, by rw [raise_lif]; exact h.2⟩
  receive _ _ h := ⟨h.1.congr rfl id id, h.2⟩
  peers _ _ h := ⟨h.1.congr rfl id id, h.2⟩
  line _ h := ⟨h.1.congr rfl id id, h.2⟩

theorem contextsAfter_standsOverTasks : StandsOverTasks ContextsAfter where
  report o s h := by
    refine ⟨h.1.raise o, ?_⟩
    rw [raise_lif]
    exact h.2.imp_right (skip_standsOverTasks.report o s)
  receive _ _ h := ⟨h.1.congr rfl id id, h.2⟩
  peers _ _ h := ⟨h.1.congr rfl id id, h.2⟩
  line _ h := ⟨h.1.congr rfl id id, h.2⟩

theorem ContextsBefore.after (h : ContextsBefore s) : ContextsAfter s := ⟨h.1, .inl h.2⟩

theorem ContextsBefore.congr (h : ContextsBefore s) (txs : t.txs = s.txs) (lif : t.lif.tx = s.lif.tx) : ContextsBefore t :=
  ⟨h.1.of_txs (h.1.inFlight_none h.2) txs, lif.trans h.2⟩

theorem ContextsBefore.phaseStart (h : ContextsBefore s) : ContextsAfter (phaseStart s) :=
  ⟨h.1.phaseStart (h.1.inFlight_none h.2), .inr (by rw [phaseStart_ctr]; exact nofun)⟩

theorem ContextsBefore.counting (h : ContextsBefore s) (o : Config.FrameEndOrder) (w : Work) :
    ContextsBefore (counting o w s) :=
  h.congr (by simp [Machine.counting]) (by simp [Machine.counting])

/-- Every phase end that begins with the driver OFF keeps the contexts in order. -/
theorem ContextsBefore.phaseEndWith (h : ContextsBefore s) (o : Config.FrameEndOrder) (w : Work) :
    ContextsAfter (phaseEndWith o w s) := by
  have hB := contextsBefore_standsOverTasks
  have hA := contextsAfter_standsOverTasks
  have hcredit : ∀ {P : State → Prop}, StandsOverTasks P → ∀ b u, P u → P (creditIf b w u) := by
    intro P hP b u hu
    rw [show creditIf b w u = u.withPmn (creditIf b w u).pmn by
      cases b <;> simp [creditIf, creditHeard_eq, State.withPmn]]
    exact hP.peers _ _ hu
  cases ha : s.ctr.aligned with
  | true =>
    rw [phaseEndWith_eq o w ha]
    have hstart : ContextsBefore (atStart o w s) :=
      runTasks_induct (fun t _ hu => hB.runTask w _ _ _ t hu) _ (hcredit hB _ _ (h.counting o w))
    refine hcredit hA _ _ ?_
    split
    · exact hA.pmnBoundary _ _ _ hstart.phaseStart
    · exact hstart.phaseStart
  | false =>
    exact (phaseEndWith_induct_aligned hB.peers (fun whole p c t _ hu => hB.runTask w whole p c t hu)
      (fun hal => absurd (ha.symm.trans hal) nofun) o (h.counting o w)).after

theorem ContextsBefore.phaseEnd (h : ContextsBefore s) (w : Work) : ContextsAfter (phaseEnd w s) :=
  ContextsBefore.phaseEndWith (h.congr (by simp) (by simp)) _ w

theorem ContextsBefore.skipExpire (h : ContextsBefore s) : ContextsAfter (skipExpire s) := by
  refine ContextsBefore.phaseEnd ?_ _
  exact h.congr rfl rfl

/-! ### Frame ends -/

theorem trackClean_tx (b : List Byte) (s : State) : (trackClean b s).lif.tx = s.lif.tx := by
  unfold trackClean
  simp only
  split_ifs <;> rfl

/-- A frame end with the driver OFF keeps the contexts in order (R21, R103). -/
theorem ContextsBefore.endFrame (h : ContextsBefore s) : ContextsAfter (endFrame s) := by
  have hdrop : ContextsBefore (dropFrame s) := h.congr (by simp) (by simp)
  unfold Machine.endFrame
  split
  · exact h.after
  · next f _ =>
    split_ifs
    · refine ContextsBefore.after ?_
      exact h.congr rfl rfl
    · unfold ownFrameEnd
      split_ifs
      · refine ContextsBefore.phaseEnd ?_ _
        exact hdrop.congr rfl rfl
      · exact hdrop.phaseEnd _
      · exact hdrop.after
    · simp only
      split
      · exact ContextsBefore.phaseEndWith (h.congr (by simp) (by simp [trackClean_tx])) _ _
      · next kind _ =>
        have hnoted : ∀ x, ContextsBefore (noteFault f.bytes x (dropFrame s)) := fun x => h.congr (by simp) (by simp)
        have hend := fun x => (hnoted x).phaseEnd (faultWork f x kind s)
        unfold faultFrameEnd
        simp only
        split
        · next hc => exact ⟨(hend _).1.enterListen (by rw [hc]; exact nofun), .inr nofun⟩
        · exact hend _

/-- A skip expiry that waited for the sample finds the driver OFF: a phase that has begun since runs its own skip timer. -/
theorem ContextsAfter.dueSkip (h : ContextsAfter s) : ContextInv (dueSkip s) := by
  unfold Machine.dueSkip
  split
  · next hs => exact (ContextsBefore.skipExpire ⟨h.1, h.2.resolve_right (absurd hs)⟩).1
  · exact h.1

theorem ContextInv.afterSample (h : ContextInv s) : ContextInv (afterSample s) := by
  unfold Machine.afterSample
  split_ifs with ht
  · exact h
  · refine (ContextsBefore.endFrame ?_).dueSkip
    exact ⟨h.congr rfl id id, by simpa using ht⟩
  · exact ContextsAfter.dueSkip ⟨h, .inl (by simpa using ht)⟩

end Sys2Proof.Machine
end

section
/-! SUPPORT. The contexts over the transmit outcomes, the transactions and every command, and so over every step (R62, R63, R68, R76,
R98 to R103). -/

namespace Sys2Proof.Machine

variable {s t : State}

/-! ### Decisions beside the Transmit Scheduler -/

/-- The commands whose decision leaves the messages, the station, the driver and what the Fault Unit has recorded as they stand. -/
def decidedBeside : List Command :=
  [.setup, .table, .restart, .enable, .test, .fetch, .status, .peers, .faults, .counter, .snapshot]

/-- What such a decision leaves. -/
structure LeftBeside (s t : State) : Prop where
  txs : t.txs = s.txs
  lif : t.lif = s.lif
  station : t.stc.station = s.stc.station
  flags : t.flt.flags = s.flt.flags
  first : t.flt.first = s.flt.first

theorem leftBeside_withPmn (s : State) (x : Pmn) : LeftBeside s (s.withPmn x) := ⟨rfl, rfl, rfl, rfl, rfl⟩

theorem decideCommand_beside {c : Command} (hc : c ∈ decidedBeside) (s : State) :
    LeftBeside s (decideCommand c s).state := by
  cases c with
  | setup =>
    simp only [decideCommand, decideSetup]
    split_ifs <;> exact ⟨rfl, rfl, rfl, rfl, rfl⟩
  | table =>
    simp only [decideCommand, decideTable]
    split_ifs <;> exact ⟨rfl, rfl, rfl, rfl, rfl⟩
  | test =>
    simp only [decideCommand, decideTest]
    split_ifs <;> exact ⟨rfl, rfl, rfl, rfl, rfl⟩
  | fetch =>
    simp only [decideCommand, decideFetch]
    split <;> exact ⟨rfl, rfl, rfl, rfl, rfl⟩
  | peers =>
    simp only [decideCommand, decidePeers]
    split_ifs
    · exact ⟨rfl, rfl, rfl, rfl, rfl⟩
    · exact leftBeside_withPmn s _
  | snapshot =>
    simp only [decideCommand, decideSnapshot]
    split <;> exact ⟨rfl, rfl, rfl, rfl, rfl⟩
  | restart | enable | status | faults | counter => exact ⟨rfl, rfl, rfl, rfl, rfl⟩
  | submit | withdraw | completions | join | leave | rejoin | faultClear => simp [decidedBeside] at hc

/-! ### Transmit outcomes (R98 to R101) -/

/-- The driver has gone OFF and the outcome has not yet reached the Transmit Scheduler: a frame may still be in flight, in ACTIVE. -/
structure Unreported (s : State) : Prop where
  records : TransmitInv s
  ordered : ContextsOrdered s
  active : s.stc.station ≠ .active → s.txs.inFlight = none

theorem ContextInv.unreported (h : ContextInv s) : Unreported s := ⟨h.records, h.ordered, h.inFlight_none_of_station⟩

section

variable (h : Unreported s)
include h

theorem Unreported.congr (txs : t.txs = s.txs) (stc : t.stc.station = s.stc.station) : Unreported t :=
  ⟨h.records.congr (by rw [txs]) (by rw [txs]), h.ordered.congr (by rw [txs]) (by rw [txs]) (by rw [txs]),
    by rw [txs, stc]; exact h.active⟩

/-- Once the frame in flight has ended, or where there is none, the contexts are in order. -/
theorem Unreported.landed (landed : t.txs = { s.txs with inFlight := none }) : ContextInv t :=
  contextInv_of_landed (h.records.congr (by rw [landed]) (by rw [landed]))
    (h.ordered.congr (by rw [landed]) (by rw [landed]; rfl) (by rw [landed])) (by rw [landed])

theorem Unreported.of_station (hs : s.stc.station ≠ .active) (txs : t.txs = s.txs) : ContextInv t :=
  h.landed (by rw [txs, ← h.active hs])

theorem Unreported.raise (o : Occurrence) : Unreported (raise o s) := by
  by_cases hs : Stops o.kind s
  · rw [raise_stops hs]
    unfold stoppingReport
    split_ifs
    · exact h.congr rfl rfl
    · exact (h.records.returnContexts rfl).unreported
    · exact h.congr rfl rfl
  · rw [raise_calm hs]; exact h.congr rfl rfl

/-- An echo failure ends the frame in flight without progress, or returns every context (R57, R100, R102). -/
theorem Unreported.reportFailure : ContextInv (reportFailure s) := by
  refine reportFailure_induct (P := ContextInv) s (fun _ _ => h.landed rfl) (fun _ _ => ?_) (fun hc _ => ?_) (fun _ _ => ?_)
    (fun ha _ => h.of_station ha rfl)
  · exact (h.landed (t := s.withTxs (txsDropFlight s.txs)) rfl).records.returnContexts rfl
  · exact h.of_station (by rw [hc]; exact nofun) rfl
  · exact h.records.returnContexts rfl

end

section

variable (h : ContextInv s)
include h

theorem ContextInv.echoFailureWith (b : Bool) (x : Transmission) : ContextInv (echoFailureWith b x s) := by
  have hoff : Unreported (driverOff s) := h.unreported.congr rfl rfl
  unfold Machine.echoFailureWith
  split
  · exact (hoff.raise _).reportFailure
  · exact hoff.reportFailure.raise _

/-- A frame without echo failure: in ACTIVE its segment counts; elsewhere none was in flight (R99). -/
theorem ContextInv.reportClean : ContextInv (reportClean (driverOff s)) := by
  by_cases ha : s.stc.station = .active
  · rw [reportClean_active (s := driverOff s) ha]
    exact h.txsEchoClean rfl
  · refine h.of_txs (h.inFlight_none_of_station ha) ?_
    unfold Machine.reportClean
    split
    · exact absurd ‹_› ha
    all_goals rfl

/-! ### Transactions -/

theorem ContextInv.decideSubmit : ContextInv (decideSubmit s).state := by
  unfold Machine.decideSubmit
  simp only
  split_ifs with _ htag hqueue hpool
  · exact h
  · exact h
  · exact h
  · exact h
  · have hheld : (submitMessage s).held = segmentCount (submitMessage s).length := cutBlocks_length _ _
    exact h.store (m := submitMessage s) (by simpa using htag) (Nat.lt_of_not_le hqueue)
      (hheld.trans_le (Nat.le_of_not_lt hpool)) hheld rfl rfl rfl rfl

theorem ContextInv.decideWithdraw : ContextInv (decideWithdraw s).state := by
  unfold Machine.decideWithdraw
  split
  · exact h
  · split_ifs with hline
    · exact h
    · exact h
    · exact h.withdraw (Bool.not_eq_true _ ▸ hline) rfl rfl rfl

theorem ContextInv.decideJoin : ContextInv (decideJoin s).state := by
  by_cases hc : s.stc.station = .config
  · refine h.of_txs (h.inFlight_none_of_station (by rw [hc]; exact nofun)) ?_
    unfold Machine.decideJoin
    split_ifs <;> rfl
  · rw [decideJoin_busy hc]; exact h

theorem ContextInv.decideLeave : ContextInv (decideLeave s).state := by
  unfold Machine.decideLeave applyLeave
  split_ifs
  · exact h
  · exact h.congr rfl id id
  · exact h.enterConfig

theorem ContextInv.decideRejoin : ContextInv (decideRejoin s).state := by
  by_cases hs : s.stc.station = .silent
  · rw [decideRejoin_ok hs]
    exact h.of_txs (h.inFlight_none_of_station (by rw [hs]; exact nofun)) rfl
  · rw [decideRejoin_busy hs]; exact h

/-- The owning block's decision keeps the contexts in order, refusal or not. -/
theorem ContextInv.decideCommand (c : Command) : ContextInv (decideCommand c s).state := by
  have hbeside : c ∈ decidedBeside → ContextInv (Machine.decideCommand c s).state := fun hc => by
    have hkept := decideCommand_beside hc s
    exact h.congr (by rw [hkept.txs]) (by rw [hkept.lif]; exact id) (by rw [hkept.station]; exact id)
  cases c with
  | submit => exact h.decideSubmit
  | withdraw => exact h.decideWithdraw
  | completions =>
    simp only [Machine.decideCommand, decideCompletions]
    split_ifs
    · exact h
    · exact h
    · exact h.congr rfl id id
  | join => exact h.decideJoin
  | leave => exact h.decideLeave
  | rejoin => exact h.decideRejoin
  | faultClear => exact h.congr rfl id id
  | _ => exact hbeside (by decide)

omit h in
theorem ContextInv.answer {a : Answer} (h : ContextInv a.state) : ContextInv (answer a) := h.congr rfl id id

theorem ContextInv.takeCommand (c : Command) : ContextInv (takeCommand c s) := by
  unfold Machine.takeCommand
  split
  · exact ContextInv.answer h
  · exact ContextInv.answer (h.decideCommand c)

theorem ContextInv.transact (c : Command) (args payload : List Byte) : ContextInv (transact c args payload s) := by
  unfold Machine.transact
  split
  · refine ContextInv.takeCommand ?_ c
    exact h.congr rfl id id
  · exact h

/-! ### Bytes of the local port -/

theorem ContextInv.withLpt (x : Lpt) : ContextInv (s.withLpt x) := h.congr rfl id id

theorem ContextInv.passOn (c : Command) (b : Byte) : ContextInv (passOn c b s) := by
  unfold Machine.passOn
  simp only
  split <;> exact h.congr rfl id id

theorem ContextInv.receiveByte (b : Byte) : ContextInv (receiveByte b s) := by
  unfold Machine.receiveByte
  split
  · exact h
  · unfold commandByte
    simp only
    split
    · exact ContextInv.answer (h.withLpt _)
    · split
      · exact ((h.withLpt _).withLpt _).takeCommand _
      · exact (h.withLpt _).withLpt _
  · unfold argumentByte
    split
    · exact h
    · next c _ =>
      split
      · exact (h.passOn c b).takeCommand c
      · exact h.passOn c b
  · unfold replyByte
    split <;> exact h.withLpt _
  · exact h.withLpt _

theorem ContextInv.riseReset : ContextInv (riseReset (portIdle s)) := by
  unfold Machine.riseReset
  split_ifs
  · exact h.congr rfl id id
  · exact contextInv_of_reset rfl
  · exact h.congr rfl id id

/-! ### Every command -/

theorem ContextInv.requestCold (hs : s.stc.station ≠ .active) : ContextInv (requestCold s) :=
  h.of_txs (h.inFlight_none_of_station hs) (by simp)

/-- A row of the line, of its timers or of a cycle boundary keeps the contexts in order. -/
theorem ContextInv.execLine {i : Instr} (line : LineEvent i) : Yields ContextInv (exec i s) := by
  have stay := yields_next h
  cases i with
  | receiverSettled | fallingEdge | breakEnded => exact yields_ite (fun _ => yields_next (h.congr rfl id id)) stay
  | startBitSeen =>
    simp only [exec, execStartBitSeen]
    split
    · exact yields_next (h.congr rfl id id)
    · rw [useUnheard_eq]
      exact yields_next (h.congr rfl id id)
    · exact stay
  | characterReceived data good =>
    exact yields_ite (fun _ => yields_next (h.congr (by simp) (by rw [takeChar_lif]; simp) (by simp))) stay
  | frameEnd =>
    refine yields_ite (fun hf => ?_) stay
    have hend : ContextInv (Machine.endFrame s) := (ContextsBefore.endFrame ⟨h, hf.2⟩).1
    split
    · exact yields_next hend
    · exact yields_next hend
    · exact yields_next (h.congr rfl id id)
    · exact stay
  | entryAged sender cls =>
    refine yields_ite (fun _ => yields_next (raiseAll_induct (fun o _ hu => hu.raise o) _ _ ?_)) stay
    exact h.congr rfl id id
  | quietLimitReached | periodicTransfer => exact yields_ite (fun _ => yields_next (h.congr rfl id id)) stay
  | echoClean =>
    simp only [exec, execEchoClean]
    split
    · exact yields_ite (fun _ => yields_next h.reportClean.finishExit) stay
    · exact stay
  | echoFailure =>
    simp only [exec, execEchoFailure]
    split
    · refine yields_ite (fun _ => stay) (yields_ite (fun _ => ?_) ?_)
      · refine yields_next (ContextInv.finishExit (ContextInv.echoFailureWith ?_ _ _))
        exact h.congr rfl id id
      · exact yields_next (h.echoFailureWith _ _).finishExit
    · exact stay
  | cut => exact yields_ite (fun _ => yields_next (ContextInv.finishExit (h.land rfl))) stay
  | skipExpiry =>
    refine yields_ite (fun hs => yields_ite (fun _ => yields_next (h.congr rfl id id)) ?_) stay
    exact yields_next (ContextsBefore.skipExpire ⟨h, hs.2.2⟩).1
  | coldStartWaitExpiry =>
    refine yields_ite (fun hw => yields_next (ContextInv.requestCold ?_ nofun)) stay
    exact h.of_txs (h.inFlight_none_of_station (by rw [hw.2]; exact nofun)) rfl
  | falseStart =>
    refine yields_ite (fun _ => yields_next (ContextInv.afterSample ?_)) stay
    exact h.congr rfl id id
  | _ => exact line.elim

/-- Every command keeps the contexts in order. -/
theorem ContextInv.exec (i : Instr) : Yields ContextInv (exec i s) := by
  have stay := yields_next h
  cases hi : transactionOf i with
  | some transaction => rw [exec_transaction s hi]; exact yields_next (h.transact _ _ _)
  | none =>
    cases i with
    | fullReset level =>
      cases level with
      | low => exact yields_next (contextInv_of_reset rfl)
      | high => exact yields_ite (fun _ => yields_next (contextInv_of_reset rfl)) stay
    | softReset => exact yields_ite (fun _ => yields_next (contextInv_of_reset rfl)) stay
    | selNFall => exact yields_ite (fun _ => yields_next (h.withLpt _)) stay
    | transactionAbandoned => exact yields_ite (fun _ => yields_next (h.congr rfl id id)) stay
    | transactionEnd => exact yields_ite (fun _ => yields_next h.riseReset) stay
    | unknownCommand code => exact yields_ite (fun _ => yields_next (ContextInv.answer (h.withLpt _))) stay
    | portByteCompleted b => exact yields_next (h.receiveByte b)
    | receiverSettled | startBitSeen | characterReceived | frameEnd | entryAged | quietLimitReached | periodicTransfer
    | echoClean | echoFailure | cut | skipExpiry | coldStartWaitExpiry | fallingEdge | falseStart | breakEnded =>
      exact h.execLine trivial
    | _ => cases hi

end

end Sys2Proof.Machine

namespace Sys2Proof.Proofs

open Sys2Proof.Machine

/-- Settles O55: every operation of the Transmit Scheduler keeps the contexts in order, a frame starts only where none is in flight,
and the driver goes OFF and the station leaves ACTIVE only with the frame in flight ended. -/
theorem contextsKeptByStep : Obligations.ContextsKeptByStep := by
  intro s t h hstep
  unfold step at hstep
  split at hstep
  · cases hstep
    exact h
  · next i rest _ =>
    refine ContextInv.exec (s := s.withPending rest) ?_ i t hstep
    exact h.congr rfl id id

end Sys2Proof.Proofs
end

section
/-! SUPPORT. The completion records with the reserved place, and the first-fault record with its flag, over every operation (R79, R96,
R149 to R155). -/

namespace Sys2Proof.Machine

/-! ### The completion records that count (R96) -/

section

variable (x : Txs)

theorem completions_le_counted : x.completions.length ≤ completionsCounted x := Nat.le_add_right _ _

/-- A frame in flight reserves at most one place. -/
theorem counted_le_succ : completionsCounted x ≤ x.completions.length + 1 := by
  unfold completionsCounted
  split <;> omega

/-- With no last segment in flight no place is reserved. -/
theorem counted_of_not_last (h : ∀ tag index, x.inFlight ≠ some (.data tag index true)) :
    completionsCounted x = x.completions.length := by
  unfold completionsCounted
  split
  · next tag index hf => exact absurd hf (h tag index)
  · rfl

theorem counted_depart (m : Message) (outcome : SendOutcome) :
    completionsCounted (depart m outcome x) = completionsCounted x + 1 := by
  simp only [completionsCounted, depart, List.length_append, List.length_singleton]
  exact Nat.add_right_comm ..

theorem counted_returnContexts : completionsCounted (returnContexts x) ≤ completionsCounted x := completions_le_counted x

theorem counted_txsDropFlight : completionsCounted (txsDropFlight x) ≤ completionsCounted x := completions_le_counted x

theorem counted_settleContexts (m : Message) : completionsCounted (settleContexts m x) = completionsCounted x := by
  obtain ⟨hflight, hcompletions⟩ := settleContexts_kept m x
  unfold completionsCounted
  rw [hflight, hcompletions]

/-- ECHO CLEAN of a last segment turns its reserved place into its completion record (R99). -/
theorem counted_txsEchoClean : completionsCounted (txsEchoClean x) ≤ completionsCounted x := by
  have hland : completionsCounted { x with inFlight := none } ≤ completionsCounted x := completions_le_counted x
  unfold txsEchoClean
  split
  · next tag index last hf =>
    split
    · next m _ =>
      cases last with
      | true =>
        have hcount : completionsCounted x = x.completions.length + 1 := by simp only [completionsCounted, hf]
        rw [hcount]
        exact (counted_depart { x with inFlight := none } m .sent).le
      | false => exact hland
    · exact hland
  · exact hland

omit x in
theorem counted_lt_of_not_full {x : Txs} (h : ¬ completionsFull x = true) : completionsCounted x < 16 :=
  Nat.lt_of_not_le fun hle => h (decide_eq_true hle)

end

/-! ### The selection and its request (R90, R95, R96) -/

section

variable {s : State}

/-- A selection appends a record only where a place is left, and asks for a last segment only where one is left to reserve. -/
theorem counted_select (n : Nat) (floor : Cls) (h : completionsCounted s.txs ≤ 16) :
    completionsCounted (select n floor s).1.txs ≤ 16 ∧
      ∀ tag index, (select n floor s).2 = .data tag index true → completionsCounted (select n floor s).1.txs < 16 := by
  induction n generalizing s with
  | zero => exact ⟨h, nofun⟩
  | succ n ih =>
    unfold select
    split
    · exact ⟨h, nofun⟩
    · next m _ =>
      split_ifs with _ hfull
      · exact ⟨h, nofun⟩
      · refine ih ?_
        show completionsCounted (depart m .unreachable s.txs) ≤ 16
        rw [counted_depart]
        exact counted_lt_of_not_full hfull
      · refine ⟨(counted_settleContexts s.txs m).trans_le h, fun tag index hr => counted_lt_of_not_full ?_⟩
        intro hfull
        simp only [requestFor] at hr
        split at hr
        · cases hr
        · next hheld =>
          obtain ⟨-, -, hlast⟩ := FrameRequest.data.inj hr
          exact hheld (Bool.and_eq_true_iff.mpr ⟨hlast, hfull⟩)

/-- A request puts its own frame in flight, or leaves the Transmit Scheduler as it is (R97, R98). -/
theorem sendRequest_inFlight (r : FrameRequest) (s : State) :
    (sendRequest r s).txs = { s.txs with inFlight := some r.inFlight } ∨ (sendRequest r s).txs = s.txs := by
  unfold sendRequest
  split
  · cases r with
    | fill => exact .inl rfl
    | data tag index last =>
      simp only
      split
      · exact .inl rfl
      · exact .inr rfl
  · exact .inr rfl

theorem counted_sendRequest {r : FrameRequest} (h : completionsCounted s.txs ≤ 16)
    (hr : ∀ tag index, r = .data tag index true → completionsCounted s.txs < 16) :
    completionsCounted (sendRequest r s).txs ≤ 16 := by
  rcases sendRequest_inFlight r s with he | he
  · rw [he]
    by_cases hlast : ∃ tag index, r = .data tag index true
    · obtain ⟨tag, index, hr'⟩ := hlast
      have := completions_le_counted s.txs
      exact (counted_le_succ _).trans (Nat.succ_le_of_lt (this.trans_lt (hr tag index hr')))
    · rw [counted_of_not_last _ fun tag index hf => hlast ⟨tag, index, ?_⟩]
      · exact (completions_le_counted s.txs).trans h
      · cases r with
        | fill => simp [FrameRequest.inFlight] at hf
        | data x y last => simpa [FrameRequest.inFlight] using hf
  · rw [he]; exact h

theorem counted_phaseStart (h : completionsCounted s.txs ≤ 16) : completionsCounted (phaseStart s).txs ≤ 16 := by
  rcases phaseStart_cases s with ⟨e, -, -, -, -, he⟩ | ⟨-, he⟩
  · rw [he]
    obtain ⟨hselect, hlast⟩ := counted_select ((messages s.txs).length + 1) e.floor
      (s := s.withCtr { s.ctr with skip := .running 2 }) h
    exact counted_sendRequest hselect hlast
  · rw [he]; exact h

end

/-! ### The first-fault record and its flag (R149, R151, R155) -/

/-- The first-fault record of a Fault Unit is valid only while the status flag of its kind is set. -/
def Flagged (f : Flt) : Prop := ∀ r, f.first = some r → hasKind f.flags r.kind = true

theorem firstFaultFlagged_iff (s : State) : FirstFaultFlagged s ↔ Flagged s.flt := Iff.rfl

theorem Flagged.recorded {f : Flt} (h : Flagged f) (masks : KindSet) (o : Occurrence) : Flagged (recorded masks o f) := by
  unfold Machine.recorded
  split
  · exact h
  · intro r hr
    rw [hasKind_addKind, Bool.or_eq_true, decide_eq_true_eq]
    cases hf : f.first with
    | none => exact .inr (by simp [hf] at hr; rw [← hr])
    | some r' => exact .inl (h r (by simp [hf] at hr; rw [hf, hr]))

/-- A clear takes a record away together with its flag (R155). -/
theorem Flagged.clearFaults {f : Flt} (h : Flagged f) (gone : KindSet) : Flagged (clearFaults gone f) := by
  intro r hr
  obtain ⟨hfirst, hkept⟩ := Option.filter_eq_some_iff.mp hr
  show hasKind (removeKinds f.flags gone) r.kind = true
  rw [hasKind_removeKinds, h r hfirst, hkept]
  rfl

end Sys2Proof.Machine
end

section
/-! SUPPORT. The completion records and the first-fault record over every command, and so over every step (R79, R96, R151). -/

namespace Sys2Proof.Machine

/-! ### From one state to another -/

/-- What RecordsKeptByStep says of a step: the completion records stay within their places, and the first-fault record keeps its
flag. -/
structure RecordsKept (s t : State) : Prop where
  counted : CompletionsBounded s → CompletionsBounded t
  flagged : FirstFaultFlagged s → FirstFaultFlagged t

theorem RecordsKept.refl (s : State) : RecordsKept s s := ⟨id, id⟩

section

variable {s u t : State} (h : RecordsKept s u)
include h

/-- Neither the messages nor what the Fault Unit has recorded changes. -/
theorem RecordsKept.same (txs : t.txs = u.txs) (flags : t.flt.flags = u.flt.flags) (first : t.flt.first = u.flt.first) :
    RecordsKept s t where
  counted hs := by rw [CompletionsBounded, txs]; exact h.counted hs
  flagged hs := by rw [FirstFaultFlagged, flags, first]; exact h.flagged hs

/-- The Transmit Scheduler changes and counts no more records, or no more than 16. -/
theorem RecordsKept.transmit (counted : completionsCounted u.txs ≤ 16 → completionsCounted t.txs ≤ 16)
    (flt : t.flt = u.flt) : RecordsKept s t where
  counted hs := counted (h.counted hs)
  flagged hs := by rw [FirstFaultFlagged, flt]; exact h.flagged hs

theorem RecordsKept.transmit_le (counted : completionsCounted t.txs ≤ completionsCounted u.txs) (flt : t.flt = u.flt) :
    RecordsKept s t := h.transmit counted.trans flt

omit h in
/-- The full reset values meet both bounds (R83, R165). -/
theorem recordsKept_of_reset (txs : t.txs = State.reset.txs) (flt : t.flt = State.reset.flt) : RecordsKept s t where
  counted _ := by rw [CompletionsBounded, txs]; decide
  flagged _ := by rw [FirstFaultFlagged, flt]; exact nofun

/-! ### The station and the faults -/

theorem RecordsKept.enterSilent : RecordsKept s (enterSilent u) := h.transmit_le (counted_returnContexts u.txs) rfl

theorem RecordsKept.enterConfig : RecordsKept s (enterConfig u) := h.transmit_le (counted_returnContexts u.txs) rfl

theorem RecordsKept.softReset : RecordsKept s (softResetState u) where
  counted _ := by show completionsCounted State.reset.txs ≤ 16; decide
  flagged := h.flagged

theorem RecordsKept.finishExit : RecordsKept s (finishExit u) := by
  unfold Machine.finishExit
  split
  · exact h.softReset
  · split
    · exact h
    · exact h.enterConfig
    · split
      · exact h.enterSilent
      · exact h.same rfl rfl rfl

theorem RecordsKept.raise (o : Occurrence) : RecordsKept s (raise o u) where
  counted hs := by
    rcases raise_txs u o with he | he <;> rw [CompletionsBounded, he]
    · exact h.counted hs
    · exact (counted_returnContexts u.txs).trans (h.counted hs)
  flagged hs := by
    rw [firstFaultFlagged_iff, raise_flt]
    exact Flagged.recorded (h.flagged hs) _ o

end

theorem recordsKept_standsOverTasks (s : State) : StandsOverTasks (RecordsKept s) where
  report o _ h := h.raise o
  receive _ _ h := h.same rfl rfl rfl
  peers _ _ h := h.same rfl rfl rfl
  line _ h := h.same rfl rfl rfl

/-! ### Phase ends and frame ends -/

theorem countAtEnd_record (o : Config.FrameEndOrder) (b : Bool) (n : Nat) (s : State) :
    (countAtEnd o b n s).flt.flags = s.flt.flags ∧ (countAtEnd o b n s).flt.first = s.flt.first := by
  unfold countAtEnd
  split_ifs <;> simp [periodBoundary_flags]

section

variable {s u : State} (h : RecordsKept s u)
include h

theorem RecordsKept.phaseStart : RecordsKept s (phaseStart u) := h.transmit counted_phaseStart (by simp)

theorem RecordsKept.phaseEndWith (o : Config.FrameEndOrder) (w : Work) : RecordsKept s (phaseEndWith o w u) := by
  have hP := recordsKept_standsOverTasks s
  refine phaseEndWith_induct hP.peers (fun whole p c t _ hu => hP.runTask w whole p c t hu) (fun _ hu => hu.phaseStart) o ?_
  obtain ⟨hflags, hfirst⟩ := countAtEnd_record o (endsCycle u) w.errors (u.withCtr (advanced u))
  exact h.same (by simp) hflags hfirst

theorem RecordsKept.phaseEnd (w : Work) : RecordsKept s (phaseEnd w u) := by
  refine RecordsKept.phaseEndWith ?_ _ w
  exact h.same (by simp) (by simp) (by simp)

theorem RecordsKept.skipExpire : RecordsKept s (skipExpire u) := by
  refine RecordsKept.phaseEnd ?_ _
  exact h.same rfl rfl rfl

theorem RecordsKept.endFrame : RecordsKept s (endFrame u) := by
  have hdrop : RecordsKept s (dropFrame u) := h.same (by simp) (by simp) (by simp)
  unfold Machine.endFrame
  split
  · exact h
  · next f _ =>
    split_ifs
    · exact h.same rfl rfl rfl
    · unfold ownFrameEnd
      split_ifs
      · refine RecordsKept.phaseEnd ?_ _
        exact hdrop.same rfl rfl rfl
      · exact hdrop.phaseEnd _
      · exact hdrop
    · simp only
      split
      · refine RecordsKept.phaseEndWith ?_ _ _
        exact h.same (by simp) (by simp) (by simp)
      · next kind _ =>
        have hnoted : ∀ x, RecordsKept s (noteFault f.bytes x (dropFrame u)) :=
          fun x => h.same (by simp) (by simp) (by simp)
        unfold faultFrameEnd
        simp only
        split
        · exact ((hnoted _).phaseEnd _).same rfl rfl rfl
        · exact (hnoted _).phaseEnd _

theorem RecordsKept.dueSkip : RecordsKept s (dueSkip u) := by
  unfold Machine.dueSkip
  split
  · exact h.skipExpire
  · exact h

theorem RecordsKept.afterSample : RecordsKept s (afterSample u) := by
  unfold Machine.afterSample
  split_ifs
  · exact h
  · refine (RecordsKept.endFrame ?_).dueSkip
    exact h.same rfl rfl rfl
  · exact h.dueSkip

/-! ### Transmit outcomes -/

theorem RecordsKept.reportClean : RecordsKept s (reportClean u) := by
  unfold Machine.reportClean
  split
  · exact h.transmit_le (counted_txsEchoClean u.txs) rfl
  · exact h.same rfl rfl rfl
  all_goals exact h

theorem RecordsKept.reportFailure : RecordsKept s (reportFailure u) := by
  refine reportFailure_induct (P := RecordsKept s) u (fun _ _ => ?_) (fun _ _ => ?_) (fun _ _ => ?_) (fun _ _ => ?_)
    (fun _ _ => h)
  · exact h.transmit_le (counted_txsDropFlight u.txs) rfl
  · refine RecordsKept.enterSilent ?_
    exact h.transmit_le (counted_txsDropFlight u.txs) rfl
  · exact h.same rfl rfl rfl
  · refine RecordsKept.enterSilent ?_
    exact h.same rfl rfl rfl

theorem RecordsKept.echoFailureWith (b : Bool) (x : Transmission) : RecordsKept s (echoFailureWith b x u) := by
  have hoff : RecordsKept s (driverOff u) := h.same rfl rfl rfl
  unfold Machine.echoFailureWith
  split
  · exact (hoff.raise _).reportFailure
  · exact hoff.reportFailure.raise _

/-! ### Transactions -/

/-- The owning block's decision keeps the records: a WITHDRAW appends one where a place is left, and COMPLETIONS removes some. -/
theorem RecordsKept.decideCommand (c : Command) : RecordsKept s (decideCommand c u).state := by
  have hbeside : c ∈ decidedBeside → RecordsKept s (Machine.decideCommand c u).state := fun hc => by
    have hkept := decideCommand_beside hc u
    exact h.same hkept.txs hkept.flags hkept.first
  cases c with
  | submit =>
    simp only [Machine.decideCommand, decideSubmit]
    split_ifs
    · exact h
    · exact h
    · exact h
    · exact h
    · exact h.transmit_le le_rfl rfl
  | withdraw =>
    simp only [Machine.decideCommand, decideWithdraw]
    split
    · exact h
    · next m _ =>
      split_ifs with _ hfull
      · exact h
      · exact h
      · refine h.transmit (fun _ => ?_) rfl
        show completionsCounted (depart m .withdrawn u.txs) ≤ 16
        rw [counted_depart]
        exact counted_lt_of_not_full hfull
  | completions =>
    simp only [Machine.decideCommand, decideCompletions]
    split_ifs
    · exact h
    · exact h
    · refine h.transmit_le ?_ rfl
      exact Nat.add_le_add_right ((List.length_drop ..).trans_le (Nat.sub_le _ _)) _
  | join =>
    simp only [Machine.decideCommand, decideJoin]
    split_ifs
    · exact h
    · exact h
    · exact h.same rfl rfl rfl
  | leave =>
    simp only [Machine.decideCommand, decideLeave, applyLeave]
    split_ifs
    · exact h
    · exact h.same rfl rfl rfl
    · exact h.enterConfig
  | rejoin =>
    simp only [Machine.decideCommand, decideRejoin]
    split_ifs
    · exact h.same rfl rfl rfl
    · exact h
  | faultClear => exact ⟨h.counted, fun hs => Flagged.clearFaults (h.flagged hs) _⟩
  | _ => exact hbeside (by decide)

omit h in
theorem RecordsKept.answer {a : Answer} (h : RecordsKept s a.state) : RecordsKept s (answer a) :=
  h.transmit_le le_rfl rfl

theorem RecordsKept.takeCommand (c : Command) : RecordsKept s (takeCommand c u) := by
  unfold Machine.takeCommand
  split
  · exact RecordsKept.answer h
  · exact RecordsKept.answer (h.decideCommand c)

theorem RecordsKept.transact (c : Command) (args payload : List Byte) : RecordsKept s (transact c args payload u) := by
  unfold Machine.transact
  split
  · refine RecordsKept.takeCommand ?_ c
    exact h.transmit_le le_rfl rfl
  · exact h

theorem RecordsKept.withLpt (x : Lpt) : RecordsKept s (u.withLpt x) := h.same rfl rfl rfl

theorem RecordsKept.passOn (c : Command) (b : Byte) : RecordsKept s (passOn c b u) := by
  unfold Machine.passOn
  simp only
  split <;> exact h.transmit_le le_rfl rfl

theorem RecordsKept.receiveByte (b : Byte) : RecordsKept s (receiveByte b u) := by
  unfold Machine.receiveByte
  split
  · exact h
  · unfold commandByte
    simp only
    split
    · exact RecordsKept.answer (h.withLpt _)
    · split
      · exact ((h.withLpt _).withLpt _).takeCommand _
      · exact (h.withLpt _).withLpt _
  · unfold argumentByte
    split
    · exact h
    · next c _ =>
      split
      · exact (h.passOn c b).takeCommand c
      · exact h.passOn c b
  · unfold replyByte
    split <;> exact h.withLpt _
  · exact h.withLpt _

theorem RecordsKept.portIdle : RecordsKept s (portIdle u) := h.transmit_le le_rfl rfl

theorem RecordsKept.riseReset : RecordsKept s (riseReset u) := by
  unfold Machine.riseReset
  split_ifs
  · exact h.same rfl rfl rfl
  · exact h.softReset
  · exact h

end

/-! ### Every command -/

section

variable {s : State}

/-- A row of the line, of its timers or of a cycle boundary keeps the records. -/
theorem recordsKept_execLine {i : Instr} (line : LineEvent i) : Yields (RecordsKept s) (exec i s) := by
  have h := RecordsKept.refl s
  have stay := yields_next h
  cases i with
  | receiverSettled | fallingEdge | breakEnded => exact yields_ite (fun _ => yields_next (h.same rfl rfl rfl)) stay
  | startBitSeen =>
    simp only [exec, execStartBitSeen]
    split
    · exact yields_next (h.same rfl rfl rfl)
    · rw [useUnheard_eq]
      exact yields_next (h.same rfl rfl rfl)
    · exact stay
  | characterReceived data good =>
    exact yields_ite (fun _ => yields_next (h.same (by simp) (by simp) (by simp))) stay
  | frameEnd =>
    refine yields_ite (fun _ => ?_) stay
    split
    · exact yields_next h.endFrame
    · exact yields_next h.endFrame
    · exact yields_next (h.same rfl rfl rfl)
    · exact stay
  | entryAged sender cls =>
    exact yields_ite (fun _ => yields_next ((recordsKept_standsOverTasks s).ageOut _ _ _ h)) stay
  | quietLimitReached => exact yields_ite (fun _ => yields_next (h.same rfl rfl rfl)) stay
  | periodicTransfer =>
    obtain ⟨hflags, hfirst⟩ := periodBoundary_flags s.cfg s.flt
    exact yields_ite (fun _ => yields_next (h.same rfl hflags hfirst)) stay
  | echoClean =>
    simp only [exec, execEchoClean]
    split
    · refine yields_ite (fun _ => yields_next (RecordsKept.reportClean ?_).finishExit) stay
      exact h.same rfl rfl rfl
    · exact stay
  | echoFailure =>
    simp only [exec, execEchoFailure]
    split
    · refine yields_ite (fun _ => stay) (yields_ite (fun _ => ?_) ?_)
      · refine yields_next (RecordsKept.echoFailureWith ?_ _ _).finishExit
        exact h.same rfl rfl rfl
      · exact yields_next (h.echoFailureWith _ _).finishExit
    · exact stay
  | cut =>
    refine yields_ite (fun _ => yields_next (RecordsKept.finishExit ?_)) stay
    exact h.transmit_le (counted_txsDropFlight s.txs) rfl
  | skipExpiry =>
    refine yields_ite (fun _ => yields_ite (fun _ => yields_next ?_) (yields_next h.skipExpire)) stay
    exact h.same rfl rfl rfl
  | coldStartWaitExpiry =>
    refine yields_ite (fun _ => yields_next ?_) stay
    exact h.same (by simp) (by simp) (by simp)
  | falseStart =>
    refine yields_ite (fun _ => yields_next (RecordsKept.afterSample ?_)) stay
    exact h.same rfl rfl rfl
  | _ => exact line.elim

/-- Every command keeps the records. -/
theorem recordsKept_exec (i : Instr) : Yields (RecordsKept s) (exec i s) := by
  have h := RecordsKept.refl s
  have stay := yields_next h
  cases hi : transactionOf i with
  | some transaction => rw [exec_transaction s hi]; exact yields_next (h.transact _ _ _)
  | none =>
    cases i with
    | fullReset level =>
      cases level with
      | low => exact yields_next (recordsKept_of_reset rfl rfl)
      | high => exact yields_ite (fun _ => yields_next (recordsKept_of_reset rfl rfl)) stay
    | softReset => exact yields_ite (fun _ => yields_next h.softReset) stay
    | selNFall => exact yields_ite (fun _ => yields_next (h.withLpt _)) stay
    | transactionAbandoned => exact yields_ite (fun _ => yields_next h.portIdle) stay
    | transactionEnd => exact yields_ite (fun _ => yields_next h.portIdle.riseReset) stay
    | unknownCommand code => exact yields_ite (fun _ => yields_next (RecordsKept.answer (h.withLpt _))) stay
    | portByteCompleted b => exact yields_next (h.receiveByte b)
    | receiverSettled | startBitSeen | characterReceived | frameEnd | entryAged | quietLimitReached | periodicTransfer
    | echoClean | echoFailure | cut | skipExpiry | coldStartWaitExpiry | fallingEdge | falseStart | breakEnded =>
      exact recordsKept_execLine trivial
    | _ => cases hi

end

end Sys2Proof.Machine

namespace Sys2Proof.Proofs

open Sys2Proof.Machine

/-- Settles O56: a completion record is appended, and a place reserved, only where one is left, and a flag is cleared only together
with the record of its kind. -/
theorem recordsKeptByStep : Obligations.RecordsKeptByStep := by
  intro s t hstep
  unfold step at hstep
  split at hstep
  · cases hstep
    exact ⟨id, id⟩
  · next i rest _ =>
    have h := recordsKept_exec (s := s.withPending rest) i t hstep
    exact ⟨h.counted, h.flagged⟩

end Sys2Proof.Proofs
end

section
/-! SUPPORT. The transmit transactions SUBMIT, WITHDRAW and COMPLETIONS, and the promises right after reset (R66, R68, R69, R76 to R80,
R96, R179). -/

namespace Sys2Proof.Machine

variable {s : State}

/-! ### SUBMIT (R66, R68, R69) -/

/-- Some record holds the tag. -/
theorem findMessage_isSome {tag : Tag} {x : Txs} :
    (findMessage tag x).isSome = true ↔ ∃ j : Cls, ∃ m ∈ x.queues[j], m.tag = tag := by
  rw [Option.isSome_iff_ne_none, ne_eq, findMessage_none]
  push Not
  rfl

theorem decideSubmit_rejected (h : submitRejected s = true) : decideSubmit s = refuse .rejected s := if_pos h

section

variable {m : Message} (hm : submitMessage s = m) (h : ¬ submitRejected s = true)
include hm h

theorem decideSubmit_taken (htag : ∃ j : Cls, ∃ y ∈ s.txs.queues[j], y.tag = m.tag) :
    decideSubmit s = refuse .rejected s := by
  simp only [decideSubmit, hm, if_neg h, if_pos (findMessage_isSome.mpr htag)]

variable (htag : ¬ ∃ j : Cls, ∃ y ∈ s.txs.queues[j], y.tag = m.tag)
include htag

theorem decideSubmit_queueFull (hqueue : 8 ≤ s.txs.queues[m.cls].length) : decideSubmit s = refuse .full s := by
  simp only [decideSubmit, hm, if_neg h, if_neg (mt findMessage_isSome.mp htag)]
  exact if_pos hqueue

theorem decideSubmit_poolFull (hqueue : ¬ 8 ≤ s.txs.queues[m.cls].length) (hpool : s.txs.free < segmentCount m.length) :
    decideSubmit s = refuse .full s := by
  simp only [decideSubmit, hm, if_neg h, if_neg (mt findMessage_isSome.mp htag)]
  exact (if_neg hqueue).trans (if_pos hpool)

theorem decideSubmit_ok (hqueue : ¬ 8 ≤ s.txs.queues[m.cls].length) (hpool : ¬ s.txs.free < segmentCount m.length) :
    decideSubmit s = grant [] (driveSub (s.withTxs (store m s.txs))) := by
  simp only [decideSubmit, hm, if_neg h, if_neg (mt findMessage_isSome.mp htag)]
  exact (if_neg hqueue).trans (if_neg hpool)

end

section

variable {tag priority destination : Byte} {length : Half} {payload : List Byte}

/-- The state in which a SUBMIT is decided: its header and its payload have come. -/
abbrev submitting (tag priority destination : Byte) (length : Half) (payload : List Byte) (s : State) : State :=
  receiveAll .submit (submitHeader tag priority destination length) payload s

theorem submitLength_header : submitLength (submitHeader tag priority destination length) = length.toNat :=
  congrArg BitVec.toNat (halfOf_bytes length)

/-- The payload of a SUBMIT with all its bytes is as long as its header says (R167). -/
theorem payload_length (h : awaits .submit (submitHeader tag priority destination length) payload s = true) :
    payload.length = length.toNat := by
  simp only [awaits, Bool.and_eq_true, beq_iff_eq] at h
  have htotal : Command.argumentTotal .submit (submitHeader tag priority destination length) =
      some (5 + (halfOf (highByte length) (lowByte length)).toNat) := rfl
  rw [htotal, halfOf_bytes] at h
  exact (Nat.add_left_cancel (Option.some.inj h.1)).symm

theorem submitRejected_iff : submitRejected (submitting tag priority destination length payload s) = true ↔
    7 < priority.toNat ∨ length = 0 ∨ 512 < length.toNat ∨ (32 ≤ destination.toNat ∧ destination.toNat ≤ 254) ∨
      destination.toNat = s.cfg.ownAddress.val := by
  have hzero : length.toNat = 0 ↔ length = 0 := BitVec.toNat_inj (y := 0)
  have hargs : submitRejected (submitting tag priority destination length payload s) =
      (decide (7 < priority.toNat) || decide (submitLength (submitHeader tag priority destination length) = 0) ||
        decide (512 < submitLength (submitHeader tag priority destination length)) || badDestination destination ||
        decide (destination.toNat = s.cfg.ownAddress.val)) := rfl
  simp only [hargs, submitLength_header, Bool.or_eq_true, decide_eq_true_eq, badDestination_iff, hzero, or_assoc]

/-- The record of a SUBMIT taken with OK: QUEUED, with one pool block for each 64 bytes of its payload (R69). -/
def submitted (tag : Tag) (k : Cls) (destination : Byte) (length : Nat) (payload : List Byte) : Message where
  tag := tag
  cls := k
  destination := destination
  length := length
  blocks := cutBlocks (segmentCount length) payload
  state := .queued

theorem submitMessage_eq (hlength : length.toNat ≤ 512) (hpayload : payload.length = length.toNat) :
    submitMessage (submitting tag priority destination length payload s) =
      submitted tag s.cfg.classMap[Fin.ofNat 8 priority.toNat] destination length.toNat payload := by
  have hstaging : (submitting tag priority destination length payload s).txs.staging = payload := by
    rw [receiveAll_staging]
    exact List.take_of_length_le (hpayload.trans_le hlength)
  have hlen : submitLength (submitting tag priority destination length payload s).lpt.args = length.toNat :=
    submitLength_header
  rw [submitMessage, hstaging, hlen]
  rfl

end

/-! ### WITHDRAW (R76 to R79, R96) -/

theorem decideWithdraw_rejected (h : findMessage (byteAt s.lpt.args 0) s.txs = none) :
    decideWithdraw s = refuse .rejected s := by
  simp only [decideWithdraw, h]

theorem decideWithdraw_busy {m : Message} (hfind : findMessage (byteAt s.lpt.args 0) s.txs = some m)
    (h : onLine m.tag s.txs = true ∨ completionsFull s.txs = true) : decideWithdraw s = refuse .busy s := by
  simp only [decideWithdraw, hfind]
  split_ifs with hline hfull
  · rfl
  · rfl
  · exact absurd h (not_or.mpr ⟨hline, hfull⟩)

theorem decideWithdraw_ok {m : Message} (hfind : findMessage (byteAt s.lpt.args 0) s.txs = some m)
    (hline : ¬ onLine m.tag s.txs = true) (hfull : ¬ completionsFull s.txs = true) :
    decideWithdraw s = grant [] (driveSub (s.withTxs (withdrawMessage m s.txs))) := by
  simp only [decideWithdraw, hfind, if_neg hline, if_neg hfull]

theorem completionsFull_iff_counted (x : Txs) : completionsFull x = true ↔ 16 ≤ completionsCounted x := decide_eq_true_iff

/-- The context of a tag leaves, any other stays (R76, R77). -/
theorem filter_current (current : Option Tag) (tag : Tag) :
    current.filter (· != tag) = if current = some tag then none else current := by
  cases current with
  | none => rfl
  | some x => by_cases hx : x = tag <;> simp [hx]

/-! ### COMPLETIONS (R80) -/

theorem completionsReply_eq (ks : List Completion) :
    completionsReply ks =
      BitVec.ofNat 8 ks.length :: ks.flatMap fun r => [r.tag, BitVec.ofNat 8 (r.cls.val + 4 * r.outcome.code)] := rfl

theorem decideCompletions_rejected (h : arg s.lpt.args 0 = 0 ∨ 16 < arg s.lpt.args 0) :
    decideCompletions s = refuse .rejected s := if_pos h

theorem decideCompletions_empty (h : ¬ (arg s.lpt.args 0 = 0 ∨ 16 < arg s.lpt.args 0)) (he : s.txs.completions = []) :
    decideCompletions s = refuse .empty s := by
  simp [decideCompletions, h, he]

theorem decideCompletions_ok (h : ¬ (arg s.lpt.args 0 = 0 ∨ 16 < arg s.lpt.args 0)) (he : s.txs.completions ≠ []) :
    decideCompletions s = grant (completionsReply (s.txs.completions.take (arg s.lpt.args 0)))
      (s.withTxs { s.txs with completions := s.txs.completions.drop (arg s.lpt.args 0) }) := by
  simp [decideCompletions, h, he]

/-! ### What a transmit transaction leaves alone -/

section

variable {u : State} (h : SameOutside [.lpt, .txs] s u)
include h

theorem SameOutside.withTxs (x : Txs) : SameOutside [.lpt, .txs] s (u.withTxs x) := by
  refine ⟨fun p hp => ?_, h.2⟩
  have hsame := h.1 p hp
  cases p with
  | txs => simp at hp
  | _ => exact hsame

theorem SameOutside.withLpt (x : Lpt) : SameOutside [.lpt, .txs] s (u.withLpt x) := by
  refine ⟨fun p hp => ?_, h.2⟩
  have hsame := h.1 p hp
  cases p with
  | lpt => simp at hp
  | _ => exact hsame

theorem SameOutside.answer {reply : List Byte} : SameOutside [.lpt, .txs] s (answer (grant reply u)) :=
  (h.withTxs _).withLpt _

end

theorem sameOutside_receiveAll (c : Command) (args payload : List Byte) (s : State) :
    SameOutside [.lpt, .txs] s (receiveAll c args payload s) :=
  SameOutside.withLpt (SameOutside.withTxs ⟨fun p _ => by cases p <;> rfl, rfl⟩ _) _

/-! ### The promises right after reset (R83, R104, R130, R165) -/

theorem receiveInv_reset : ReceiveInv State.reset where
  pool := rfl
  table := ⟨by decide, .nil, nofun⟩
  delivery := ⟨by decide, nofun⟩

theorem linesInv_reset : LinesInv State.reset where
  trigger := by decide
  quietFlag := nofun
  quiet := nofun
  sub0 _ _ := by decide
  sub1on _ := nofun
  sub1off _ := nofun
  dlv0 _ _ := by decide
  dlv1on _ := nofun
  dlv1off _ := nofun

end Sys2Proof.Machine

namespace Sys2Proof.Proofs

open Sys2Proof.Machine

/-- Settles O18: the branches of the decision in the order of R68, read from the header and the payload as they have come. -/
theorem submit : Obligations.Submit := by
  intro tag priority destination length payload s i k n hw
  have hi : transactionOf i = some (.submit, submitHeader tag priority destination length, payload) := rfl
  have hreject := submitRejected_iff (tag := tag) (priority := priority) (destination := destination) (length := length)
    (payload := payload) (s := s)
  split
  · next hrejected => exact exec_refused hi hw (decideSubmit_rejected (hreject.mpr hrejected))
  · next hrejected =>
    have hchecked := mt hreject.mp hrejected
    have hlength : length.toNat ≤ 512 := Nat.le_of_not_lt fun h => hrejected (.inr (.inr (.inl h)))
    have hm : submitMessage (submitting tag priority destination length payload s) =
        submitted tag k destination length.toNat payload := submitMessage_eq hlength (payload_length hw.1)
    have hheld : (submitted tag k destination length.toNat payload).held = n := cutBlocks_length _ _
    split_ifs with htag hqueue hpool
    · exact exec_refused hi hw (decideSubmit_taken hm hchecked htag)
    · exact exec_refused hi hw (decideSubmit_queueFull hm hchecked htag hqueue)
    · exact exec_refused hi hw (decideSubmit_poolFull hm hchecked htag hqueue hpool)
    · refine ⟨_, submitted tag k destination length.toNat payload,
        exec_granted hi hw (decideSubmit_ok hm hchecked htag hqueue hpool), ⟨rfl, rfl, rfl⟩, rfl, rfl, rfl, rfl, rfl, hheld,
        fun j hj => cutBlocks_get payload hj, (store_queue _ _ k).trans (if_pos rfl),
        fun j hj => (store_queue _ _ j).trans (if_neg hj), ?_, subNext_eq _, rfl, rfl,
        (((sameOutside_receiveAll ..).withTxs _).withLpt _).answer⟩
      rw [← hheld]
      rfl

/-- Settles O19: the branches of the decision for the one record of the tag. -/
theorem withdraw : Obligations.Withdraw := by
  intro tag s htags hw
  have hi : transactionOf (.withdraw tag) = some (.withdraw, [tag], []) := rfl
  refine ⟨fun hnone => ?_, fun j m hm htag => ?_⟩
  · exact exec_refused hi hw (decideWithdraw_rejected (findMessage_none.mpr hnone))
  · subst htag
    have hmem : m ∈ messages s.txs := mem_messages.mpr ⟨j, hm⟩
    have hfind : findMessage m.tag s.txs = some m := findMessage_of_mem htags hmem
    refine ⟨fun hbusy => exec_refused hi hw (decideWithdraw_busy hfind ?_), fun hline hcounted => ?_⟩
    · exact hbusy.imp (onLine_iff m.tag s.txs).mpr (completionsFull_iff_counted s.txs).mpr
    · have hoff : ¬ onLine m.tag s.txs = true := fun h => by
        obtain ⟨index, last, hf⟩ := (onLine_iff m.tag s.txs).mp h
        exact hline index last hf
      have hfull : ¬ completionsFull s.txs = true := mt (completionsFull_iff_counted s.txs).mp (Nat.not_le_of_lt hcounted)
      refine ⟨_, exec_granted hi hw (decideWithdraw_ok hfind hoff hfull), ⟨rfl, rfl, rfl⟩, depart_queue m .withdrawn s.txs, ?_,
        rfl, filter_current _ _, rfl, rfl, rfl, rfl, subNext_eq _, rfl, rfl,
        (((sameOutside_receiveAll ..).withTxs _).withLpt _).answer⟩
      have hheld : (((messages s.txs).filter fun x => x.tag == m.tag).map Message.held).sum = m.blocks.length := by
        rw [filter_tag htags hmem]
        exact Nat.add_zero _
      exact congrArg (s.txs.free + ·) hheld

/-- Settles O20: the three branches of the decision. -/
theorem completions : Obligations.Completions := by
  intro n s hw
  have hi : transactionOf (.completions n) = some (.completions, [n], []) := rfl
  have hn : (arg [n] 0 = 0 ∨ 16 < arg [n] 0) ↔ (n = 0 ∨ 16 < n.toNat) := or_congr (BitVec.toNat_inj (y := 0)) Iff.rfl
  split_ifs with hrange hempty
  · exact exec_refused hi hw (decideCompletions_rejected (hn.mpr hrange))
  · exact exec_refused hi hw (decideCompletions_empty (mt hn.mp hrange) hempty)
  · refine ⟨_, exec_granted hi hw (decideCompletions_ok (mt hn.mp hrange) hempty), ⟨rfl, ?_, rfl⟩, rfl, ⟨rfl, rfl, rfl⟩,
      ((sameOutside_receiveAll ..).withTxs _).answer⟩
    rw [← List.length_take, ← completionsReply_eq]
    rfl

/-- Settles O54: each promise at its reset values. -/
theorem promisesAtReset : Obligations.PromisesAtReset :=
  ⟨contextInv_of_reset rfl, by unfold CompletionsBounded; decide, receiveInv_reset, nofun, stationInv_reset, ⟨nofun, nofun⟩,
    countersInv_reset, linesInv_reset⟩

end Sys2Proof.Proofs
end

section
/-! SUPPORT. The promises of the receive side as a property of the Receive Unit alone, and what each of its operations does to them
(R108, R110, R121). -/

namespace Sys2Proof.Machine

/-! ### The promises -/

/-- An entry counts its segments, of which it holds one to seven (R110). -/
def EntryFits (e : Entry) : Prop := e.next = e.blocks.length ∧ 1 ≤ e.next ∧ e.next ≤ 7

/-- A delivery record holds the pool blocks that its length calls for (R121). -/
def DeliveryFits (d : Delivery) : Prop := 1 ≤ d.length ∧ d.length ≤ 512 ∧ d.blocks.length = segmentCount d.length

/-- What ReceiveInv says of the Receive Unit. -/
structure ReceiveWhole (x : Rxu) : Prop where
  pool : x.free + entryBlocks x.table + deliveryBlocks x.delivery = 64
  places : x.table.length ≤ 8
  sorted : TableSorted x.table
  entries : ∀ e ∈ x.table, EntryFits e
  queue : x.delivery.length ≤ 16
  records : ∀ d ∈ x.delivery, DeliveryFits d

theorem receiveInv_iff {s : State} : ReceiveInv s ↔ ReceiveWhole s.rxu :=
  ⟨fun h => ⟨h.pool, h.table.bound, h.table.keys, h.table.blocks, h.delivery.bound, h.delivery.records⟩,
    fun h => ⟨h.pool, ⟨h.places, h.sorted, h.entries⟩, ⟨h.queue, h.records⟩⟩⟩

theorem receiveWhole_reset : ReceiveWhole State.reset.rxu := receiveInv_iff.mp receiveInv_reset

/-- The segment buffer, the quiet counter and the quiet flag have no part in the promises. -/
theorem ReceiveWhole.congr {x y : Rxu} (h : ReceiveWhole x) (free : y.free = x.free := by rfl)
    (table : y.table = x.table := by rfl) (delivery : y.delivery = x.delivery := by rfl) : ReceiveWhole y where
  pool := by rw [free, table, delivery]; exact h.pool
  places := by rw [table]; exact h.places
  sorted := by rw [table]; exact h.sorted
  entries := by rw [table]; exact h.entries
  queue := by rw [delivery]; exact h.queue
  records := by rw [delivery]; exact h.records

/-! ### Pool blocks of a table and of a queue -/

theorem entryBlocks_cons (e : Entry) (l : List Entry) : entryBlocks (e :: l) = e.blocks.length + entryBlocks l := rfl

theorem entryBlocks_perm {l l' : List Entry} (h : l.Perm l') : entryBlocks l = entryBlocks l' := (h.map _).sum_eq

theorem deliveryBlocks_cons (d : Delivery) (l : List Delivery) :
    deliveryBlocks (d :: l) = d.blocks.length + deliveryBlocks l := rfl

theorem deliveryBlocks_concat (l : List Delivery) (d : Delivery) :
    deliveryBlocks (l ++ [d]) = deliveryBlocks l + d.blocks.length := by
  simp [deliveryBlocks]

/-! ### The one entry of a key -/

/-- An ascending table holds one entry of a key. -/
theorem TableSorted.filter_rank {table : List Entry} (h : TableSorted table) {e : Entry} (he : e ∈ table) :
    table.filter (fun x => decide (x.rank = e.rank)) = [e] := by
  induction table with
  | nil => cases he
  | cons y ys ih =>
    have hlater : ∀ x ∈ ys, y.rank < x.rank := fun x hx => List.rel_of_pairwise_cons h (List.mem_map_of_mem hx)
    rcases List.mem_cons.mp he with rfl | he
    · rw [List.filter_cons_of_pos (by simp), List.filter_eq_nil_iff.mpr fun x hx => by simpa using (hlater x hx).ne']
    · rw [List.filter_cons_of_neg (by simpa using (hlater e he).ne), ih (List.Pairwise.of_cons h) he]

/-- The table of one key's entry and the rest. -/
theorem perm_withoutKey {f : Gather} {x : Rxu} {e : Entry} (h : TableSorted x.table) (he : e ∈ x.table) (key : KeyOf f e) :
    x.table.Perm (e :: (withoutKey f x).table) := by
  have hone : x.table.filter (fun y => decide (KeyOf f y)) = [e] := by
    rw [← h.filter_rank he]
    refine List.filter_congr fun y _ => ?_
    rw [decide_eq_decide, rank_eq_iff, key.1, key.2]
  have hsplit := List.filter_append_perm (fun y => decide (KeyOf f y)) x.table
  rw [hone] at hsplit
  simpa [withoutKey] using hsplit.symm

/-! ### What leaves -/

section

variable {x : Rxu} (h : ReceiveWhole x)
include h

/-- Discarded entries return their pool blocks (R108). -/
theorem ReceiveWhole.discard (which : Entry → Bool) : ReceiveWhole (discardEntries which x) where
  pool := by
    rw [discardEntries_blocks]
    exact h.pool
  places := (List.length_filter_le ..).trans h.places
  sorted := discardEntries_sorted h.sorted which
  entries e he := h.entries e (mem_discardEntries he).1
  queue := h.queue
  records := h.records

theorem ReceiveWhole.withoutKey (f : Gather) : ReceiveWhole (withoutKey f x) := by
  rw [← discardEntry_eq]
  exact h.discard _

/-- The emptied table returns its pool blocks (R62, R129). -/
theorem ReceiveWhole.emptied : ReceiveWhole { x with segBuf := [], table := [], free := x.free + entryBlocks x.table } where
  pool := h.pool
  places := Nat.zero_le 8
  sorted := .nil
  entries := nofun
  queue := h.queue
  records := h.records

/-- A fetched record returns its pool blocks (R122). -/
theorem ReceiveWhole.fetched {d : Delivery} {rest : List Delivery} (hd : x.delivery = d :: rest) :
    ReceiveWhole (fetched d rest x) where
  pool := by
    have hpool := h.pool
    rw [hd, deliveryBlocks_cons] at hpool
    show x.free + d.blocks.length + entryBlocks x.table + deliveryBlocks rest = 64
    omega
  places := h.places
  sorted := h.sorted
  entries := h.entries
  queue := by
    have hqueue := h.queue
    rw [hd, List.length_cons] at hqueue
    exact (Nat.le_succ _).trans hqueue
  records y hy := h.records y (by rw [hd]; exact List.mem_cons_of_mem d hy)

/-- Aging changes no entry that stays but in its age (R116, R124). -/
theorem ReceiveWhole.aged (limits : Items) : ReceiveWhole (agedRxu limits x) := by
  have hgone := h.discard fun e => decide (e.age + 1 = limits.ageLimit)
  exact
    { pool := by
        have hpool := hgone.pool
        rw [← entryBlocks_map (g := older) fun _ => rfl] at hpool
        exact hpool
      places := (List.length_map _).trans_le hgone.places
      sorted := hgone.sorted.map fun _ => rfl
      entries := fun e he => by
        obtain ⟨y, hy, rfl⟩ := List.mem_map.mp he
        exact hgone.entries y hy
      queue := h.queue
      records := h.records }

theorem ReceiveWhole.quietBoundary (limit : Nat) : ReceiveWhole (quietBoundary limit x) := by
  rw [quietBoundary_eq]
  exact h.congr

/-! ### What comes in -/

/-- A record of a free pool block more than those that left the table (R109, R115). -/
theorem ReceiveWhole.delivered {d : Delivery} {table : List Entry} (room : RoomToDeliver x) (fits : DeliveryFits d)
    (left : table.Sublist x.table) (held : entryBlocks table + d.blocks.length = entryBlocks x.table + 1) :
    ReceiveWhole { x with free := x.free - 1, quiet := 0, table := table, delivery := x.delivery ++ [d] } where
  pool := by
    have hpool := h.pool
    have hfree := room.1
    show x.free - 1 + entryBlocks table + deliveryBlocks (x.delivery ++ [d]) = 64
    rw [deliveryBlocks_concat]
    omega
  places := left.length_le.trans h.places
  sorted := h.sorted.sublist (left.map _)
  entries e he := h.entries e (left.subset he)
  queue := by
    show (x.delivery ++ [d]).length ≤ 16
    rw [List.length_append]
    exact room.2
  records y hy := by
    rcases List.mem_append.mp hy with hy | hy
    · exact h.records y hy
    · rw [List.mem_singleton.mp hy]
      exact fits

/-- An entry that comes into the table, or comes back into it, with one pool block more (R111, R114). -/
theorem ReceiveWhole.entered {e : Entry} {table rest : List Entry} (room : 1 ≤ x.free) (fits : EntryFits e)
    (made : table.Perm (e :: rest)) (sorted : TableSorted table) (left : ∀ y ∈ rest, y ∈ x.table) (places : rest.length < 8)
    (held : entryBlocks rest + e.blocks.length = entryBlocks x.table + 1) :
    ReceiveWhole { x with free := x.free - 1, table := table } where
  pool := by
    have hpool := h.pool
    show x.free - 1 + entryBlocks table + deliveryBlocks x.delivery = 64
    rw [entryBlocks_perm made, entryBlocks_cons]
    omega
  places := by
    show table.length ≤ 8
    rw [made.length_eq]
    exact places
  sorted := sorted
  entries y hy := by
    rcases List.mem_cons.mp (made.mem_iff.mp hy) with rfl | hy
    · exact fits
    · exact h.entries y (left y hy)
  queue := h.queue
  records := h.records

end

/-! ### A taken frame (R107 to R115) -/

/-- What check 4 of R20 leaves of a DATA frame: 1 to 64 payload bytes, and a segment of index 7 is the last. -/
structure SegmentFits (f : Gather) : Prop where
  nonempty : 1 ≤ lengthOf f.bytes
  length : lengthOf f.bytes ≤ 64
  last : indexOf f.bytes = 7 → lastOf f.bytes = true

theorem segmentFits_of_clean {table : List PhaseEntry} {digest : Byte} {f : Gather}
    (h : checkFrame table digest f = .clean) (data : kindOf f.bytes = some .data) : SegmentFits f := by
  obtain ⟨-, -, -, hvalues, -⟩ := (checkFrame_iff _ _ _ _).mp h
  have hkind : (byteAt (f.chars.map RxChar.data) 1).toNat / 32 = 1 := kindOf_eq_data.mp data
  simp only [ValuesFault, not_or, not_and, hkind, forall_const] at hvalues
  obtain ⟨-, -, -, hzero, hlong, -, -, hlast⟩ := hvalues
  refine ⟨Nat.pos_of_ne_zero hzero, Nat.le_of_not_lt hlong, fun hi => ?_⟩
  by_contra hn
  refine hlast hi fun hodd => hn ?_
  rw [lastOf, BitVec.getLsbD, Nat.testBit_zero]
  exact decide_eq_true hodd

theorem segmentCount_of_segments {n k : Nat} (h1 : 1 ≤ k) (h2 : k ≤ 64) : segmentCount (64 * n + k) = n + 1 := by
  simp only [segmentCount]
  omega

/-- A taken frame, handled as R109 to R115 say, keeps the promises where the table stays in its order. -/
theorem Handled.whole_kept {f : Gather} (fits : SegmentFits f) {payload : List Byte} {x y : Rxu} {kinds : List FaultKind}
    (h : Handled f payload x y kinds) (hx : ReceiveWhole x) (hy : TableSorted y.table) : ReceiveWhole y := by
  obtain ⟨hnonempty, hlength, hseven⟩ := fits
  have hindex : indexOf f.bytes < 8 := Nat.mod_lt _ (by decide)
  induction h with
  | whole x index last fresh room =>
    have hcount : segmentCount (lengthOf f.bytes) = 1 := by simpa using segmentCount_of_segments (n := 0) hnonempty hlength
    exact hx.delivered room ⟨hnonempty, by show lengthOf f.bytes ≤ 512; omega, hcount.symm⟩ (.refl _) rfl
  | wholeNoSpace x index last fresh full => exact hx
  | first x table index last fresh place room made =>
    exact hx.entered room ⟨rfl, le_rfl, Nat.succ_le_succ (Nat.zero_le 6)⟩ made hy (fun _ h => h) place rfl
  | firstNoSpace x index last fresh full => exact hx
  | replaces x y kinds e index stands key rest ih => exact ih (hx.withoutKey f) hy
  | orphan x index fresh => exact hx
  | contradicts x e index stands key differs => exact hx.withoutKey f
  | continues x e table index stands key next number last room advanced =>
    have hsplit := perm_withoutKey hx.sorted stands key
    have hplaces := hx.places
    have hblocks := entryBlocks_perm hsplit
    obtain ⟨hheld, hlow, hhigh⟩ := hx.entries e stands
    have hmiddle : indexOf f.bytes ≠ 7 := fun hi => by simp [hseven hi] at last
    rw [entryBlocks_cons] at hblocks
    rw [hsplit.length_eq, List.length_cons] at hplaces
    refine hx.entered room ⟨?_, ?_, ?_⟩ advanced hy (fun y h => hsplit.mem_iff.mpr (List.mem_cons_of_mem e h)) hplaces ?_
    · simp [hheld]
    · show 1 ≤ e.next + 1
      omega
    · show e.next + 1 ≤ 7
      omega
    · simp only [List.length_append, List.length_singleton]
      omega
  | completes x e index stands key next number last room =>
    have hblocks := entryBlocks_perm (perm_withoutKey hx.sorted stands key)
    obtain ⟨hheld, -, hhigh⟩ := hx.entries e stands
    rw [entryBlocks_cons] at hblocks
    refine hx.delivered room ⟨?_, ?_, ?_⟩ List.filter_sublist ?_
    · show 1 ≤ 64 * e.next + lengthOf f.bytes
      omega
    · show 64 * e.next + lengthOf f.bytes ≤ 512
      omega
    · simp [segmentCount_of_segments hnonempty hlength, hheld]
    · show entryBlocks (Machine.withoutKey f x).table + (e.blocks ++ [payload]).length = _
      rw [List.length_append, List.length_singleton]
      omega
  | continuesNoSpace x e index stands key next number full => exact hx.withoutKey f

end Sys2Proof.Machine
end

section
/-! SUPPORT. The promises of the receive side over every operation, every command, and so over every step (R108, R110, R121). -/

namespace Sys2Proof.Machine

section

variable {s : State} (h : ReceiveWhole s.rxu)
include h

/-! ### The station -/

theorem ReceiveWhole.enterConfig : ReceiveWhole (enterConfig s).rxu := h.emptied

theorem ReceiveWhole.finishExit : ReceiveWhole (finishExit s).rxu := by
  unfold Machine.finishExit
  split
  · exact receiveWhole_reset
  · split
    · exact h
    · exact h.enterConfig
    · split
      · exact h
      · exact h

/-! ### Phase ends and frame ends -/

/-- The work of a phase end hands on a frame of another station only as the Frame Unit has checked it (R20, R106). -/
def TakenFits (w : Work) : Prop := ∀ g, w.taken = some g → ∃ f s0 p c, g = takenFrame f s0 p c ∧ SegmentFits f

omit h in
theorem takenFits_of_none {w : Work} (hw : w.taken = none) : TakenFits w := fun g hg => by
  rw [hw] at hg
  cases hg

theorem ReceiveWhole.runTask {w : Work} (fits : TakenFits w) (whole : Bool) (p : Phase) (c : Cycle) (t : Task) :
    ReceiveWhole (runTask w whole p c t s).rxu := by
  cases t with
  | fault => simpa only [Machine.runTask, raiseAll_rxu] using h
  | frame =>
    cases hg : w.taken with
    | none => simpa only [Machine.runTask, hg] using h
    | some g =>
      obtain ⟨f, s0, p', c', rfl, hf⟩ := fits g hg
      obtain ⟨kinds, hhandled, -⟩ := takeFrame_handled f s0 p' c' s
      simpa only [Machine.runTask, hg] using hhandled.whole_kept hf h (takeFrame_sorted h.sorted)
  | aging =>
    simp only [Machine.runTask, rxuBoundary_rxu]
    exact h.aged s.cfg
  | presence =>
    simp only [Machine.runTask, pmnBoundary_rxu]
    exact h.discard _

theorem ReceiveWhole.phaseEndWith {w : Work} (fits : TakenFits w) (o : Config.FrameEndOrder) :
    ReceiveWhole (phaseEndWith o w s).rxu := by
  refine phaseEndWith_induct (P := fun u => ReceiveWhole u.rxu) (fun _ _ hu => hu)
    (fun whole p c t _ hu => hu.runTask fits whole p c t) (fun _ hu => ?_) o ?_
  · rw [phaseStart_rxu]
    exact hu
  · rw [countAtEnd_rxu]
    exact h

theorem ReceiveWhole.phaseEnd {w : Work} (hw : w.taken = none) : ReceiveWhole (phaseEnd w s).rxu := by
  refine ReceiveWhole.phaseEndWith ?_ (takenFits_of_none hw) _
  rw [useOrder_rxu]
  exact h

theorem ReceiveWhole.skipExpire : ReceiveWhole (skipExpire s).rxu := by
  refine ReceiveWhole.phaseEnd (w := .nothing) ?_ rfl
  exact h

theorem ReceiveWhole.dropFrame : ReceiveWhole (dropFrame s).rxu := h.congr

theorem ReceiveWhole.ownFrameEnd : ReceiveWhole (ownFrameEnd s).rxu := by
  unfold Machine.ownFrameEnd
  split_ifs
  · refine ReceiveWhole.phaseEnd ?_ rfl
    exact h
  · exact h.phaseEnd rfl
  · exact h

theorem ReceiveWhole.faultFrameEnd (f : Gather) (outcome : FrameOutcome) (kind : FaultKind) :
    ReceiveWhole (faultFrameEnd f outcome kind s).rxu := by
  have hend : ReceiveWhole
      (Machine.phaseEnd (faultWork f outcome kind s) (noteFault f.bytes outcome (Machine.dropFrame s))).rxu := by
    refine ReceiveWhole.phaseEnd ?_ rfl
    rw [noteFault_rxu]
    exact h.dropFrame
  unfold Machine.faultFrameEnd
  simp only
  split
  · exact hend
  · exact hend

omit h in
/-- The work of a clean frame hands on that frame, or none. -/
theorem takenFits_cleanWork {f : Gather} (fits : kindOf f.bytes = some .data → SegmentFits f) (e : Option Nat) (b : Bool) :
    TakenFits (cleanWork f e b s) := by
  intro g hg
  simp only [cleanWork] at hg
  split at hg
  · next htakes =>
    have hdata : kindOf f.bytes = some .data := by
      simp only [takes, Bool.and_eq_true, beq_iff_eq] at htakes
      exact htakes.1.1.1.1
    cases b with
    | true => exact ⟨f, s, _, _, (Option.some.inj hg).symm, fits hdata⟩
    | false => exact ⟨f, s, _, _, (Option.some.inj hg).symm, fits hdata⟩
  · cases hg

theorem ReceiveWhole.cleanFrameEnd {f : Gather} (fits : kindOf f.bytes = some .data → SegmentFits f) :
    ReceiveWhole (cleanFrameEnd f s).rxu := by
  refine ReceiveWhole.phaseEndWith ?_ (takenFits_cleanWork fits _ _) _
  rw [useOrder_rxu, notePeer_rxu, trackClean_rxu]
  exact h.dropFrame

omit h in
theorem FrameOutcome.clean_of_kind {outcome : FrameOutcome} (hk : outcome.kind = none) : outcome = .clean := by
  cases outcome with
  | clean => rfl
  | framing | format | crc | digest | foreign => cases hk

theorem ReceiveWhole.endFrame : ReceiveWhole (endFrame s).rxu := by
  unfold Machine.endFrame
  split
  · exact h
  · next f _ =>
    split_ifs
    · exact h
    · exact h.dropFrame.ownFrameEnd
    · simp only
      split
      · next hclean => exact h.cleanFrameEnd (segmentFits_of_clean (FrameOutcome.clean_of_kind hclean))
      · exact h.faultFrameEnd f _ _

theorem ReceiveWhole.dueSkip : ReceiveWhole (dueSkip s).rxu := by
  unfold Machine.dueSkip
  split
  · exact h.skipExpire
  · exact h

theorem ReceiveWhole.afterSample : ReceiveWhole (afterSample s).rxu := by
  unfold Machine.afterSample
  split_ifs
  · exact h
  · refine (ReceiveWhole.endFrame ?_).dueSkip
    exact h
  · exact h.dueSkip

theorem ReceiveWhole.takeChar (ch : RxChar) : ReceiveWhole (takeChar ch s).rxu := by
  unfold Machine.takeChar
  simp only
  split
  · exact h
  · exact h.congr

/-! ### Transactions -/

omit h in
theorem grant_state (reply : List Byte) (u : State) : (grant reply u).state = u := rfl

theorem ReceiveWhole.decideFetch : ReceiveWhole (decideFetch s).state.rxu := by
  unfold Machine.decideFetch
  split
  · exact h
  · next hd => exact h.fetched hd

/-- SETUP changes the quiet counter and flag, LEAVE empties the table, FETCH removes a record, and no other decision changes the
Receive Unit. -/
theorem ReceiveWhole.decideCommand (c : Command) : ReceiveWhole (decideCommand c s).state.rxu := by
  cases c with
  | setup =>
    simp only [Machine.decideCommand, decideSetup]
    split_ifs
    · exact h
    · exact h.congr
    · exact h
  | table =>
    simp only [Machine.decideCommand, decideTable]
    split_ifs <;> exact h
  | join =>
    simp only [Machine.decideCommand, decideJoin]
    split_ifs <;> exact h
  | leave =>
    simp only [Machine.decideCommand, decideLeave, applyLeave]
    split_ifs
    · exact h
    · exact h
    · exact h.enterConfig
  | rejoin =>
    simp only [Machine.decideCommand, decideRejoin]
    split_ifs <;> exact h
  | test =>
    simp only [Machine.decideCommand, decideTest]
    split_ifs <;> exact h
  | submit =>
    simp only [Machine.decideCommand, decideSubmit]
    split_ifs <;> exact h
  | withdraw =>
    simp only [Machine.decideCommand, decideWithdraw]
    split
    · exact h
    · split_ifs <;> exact h
  | completions =>
    simp only [Machine.decideCommand, decideCompletions]
    split_ifs <;> exact h
  | fetch => exact h.decideFetch
  | peers =>
    simp only [Machine.decideCommand, decidePeers]
    split_ifs
    · exact h
    · rw [grant_state, State.withPmn_rxu]
      exact h
  | snapshot =>
    simp only [Machine.decideCommand, decideSnapshot]
    split <;> exact h
  | restart | enable | status | faults | faultClear | counter => exact h

theorem ReceiveWhole.takeCommand (c : Command) : ReceiveWhole (takeCommand c s).rxu := by
  unfold Machine.takeCommand
  split
  · exact h
  · exact h.decideCommand c

theorem ReceiveWhole.transact (c : Command) (args payload : List Byte) :
    ReceiveWhole (transact c args payload s).rxu := by
  unfold Machine.transact
  split
  · refine ReceiveWhole.takeCommand ?_ c
    exact h
  · exact h

omit h in
theorem passOn_rxu (c : Command) (b : Byte) (s : State) : (passOn c b s).rxu = s.rxu := by
  unfold passOn
  simp only
  split <;> rfl

theorem ReceiveWhole.receiveByte (b : Byte) : ReceiveWhole (receiveByte b s).rxu := by
  unfold Machine.receiveByte
  split
  · exact h
  · unfold commandByte
    simp only
    split
    · exact h
    · split
      · refine ReceiveWhole.takeCommand ?_ _
        exact h
      · exact h
  · unfold argumentByte
    split
    · exact h
    · next c _ =>
      have hpassed : ReceiveWhole (passOn c b s).rxu := by
        rw [passOn_rxu]
        exact h
      split
      · exact hpassed.takeCommand c
      · exact hpassed
  · unfold replyByte
    split <;> exact h
  · exact h

theorem ReceiveWhole.riseReset : ReceiveWhole (riseReset s).rxu := by
  unfold Machine.riseReset
  split_ifs
  · exact h
  · exact receiveWhole_reset
  · exact h

/-! ### Every command -/

/-- A row of the line, of its timers or of a cycle boundary keeps the promises. -/
theorem ReceiveWhole.execLine {i : Instr} (line : LineEvent i) : Yields (fun t => ReceiveWhole t.rxu) (exec i s) := by
  have stay := yields_next (P := fun t => ReceiveWhole t.rxu) h
  cases i with
  | receiverSettled | fallingEdge | breakEnded | periodicTransfer => exact yields_ite (fun _ => yields_next h) stay
  | startBitSeen =>
    simp only [exec, execStartBitSeen]
    split
    · exact yields_next h
    · rw [useUnheard_eq]
      exact yields_next h
    · exact stay
  | characterReceived data good => exact yields_ite (fun _ => yields_next (h.takeChar _)) stay
  | frameEnd =>
    refine yields_ite (fun _ => ?_) stay
    split
    · exact yields_next h.endFrame
    · exact yields_next h.endFrame
    · exact yields_next h
    · exact stay
  | entryAged sender cls =>
    refine yields_ite (fun _ => yields_next ?_) stay
    rw [ageOut_rxu]
    exact h.discard _
  | quietLimitReached => exact yields_ite (fun _ => yields_next (h.quietBoundary _)) stay
  | echoClean =>
    simp only [exec, execEchoClean]
    split
    · refine yields_ite (fun _ => yields_next (ReceiveWhole.finishExit ?_)) stay
      rw [reportClean_rxu]
      exact h
    · exact stay
  | echoFailure =>
    simp only [exec, execEchoFailure]
    split
    · refine yields_ite (fun _ => stay) (yields_ite (fun _ => yields_next ?_) (yields_next ?_))
      · refine ReceiveWhole.finishExit ?_
        rw [echoFailureWith_rxu]
        exact h
      · refine ReceiveWhole.finishExit ?_
        rw [echoFailureWith_rxu]
        exact h
    · exact stay
  | cut =>
    refine yields_ite (fun _ => yields_next (ReceiveWhole.finishExit ?_)) stay
    exact h
  | skipExpiry => exact yields_ite (fun _ => yields_ite (fun _ => yields_next h) (yields_next h.skipExpire)) stay
  | coldStartWaitExpiry =>
    refine yields_ite (fun _ => yields_next ?_) stay
    rw [requestCold_rxu]
    exact h
  | falseStart =>
    refine yields_ite (fun _ => yields_next (ReceiveWhole.afterSample ?_)) stay
    exact h
  | _ => exact line.elim

/-- Every command keeps the promises. -/
theorem ReceiveWhole.exec (i : Instr) : Yields (fun t => ReceiveWhole t.rxu) (exec i s) := by
  have stay := yields_next (P := fun t => ReceiveWhole t.rxu) h
  cases hi : transactionOf i with
  | some transaction => rw [exec_transaction s hi]; exact yields_next (h.transact _ _ _)
  | none =>
    cases i with
    | fullReset level =>
      cases level with
      | low => exact yields_next receiveWhole_reset
      | high => exact yields_ite (fun _ => yields_next receiveWhole_reset) stay
    | softReset => exact yields_ite (fun _ => yields_next receiveWhole_reset) stay
    | selNFall | transactionAbandoned | unknownCommand code => exact yields_ite (fun _ => yields_next h) stay
    | transactionEnd =>
      refine yields_ite (fun _ => yields_next (ReceiveWhole.riseReset ?_)) stay
      exact h
    | portByteCompleted b => exact yields_next (h.receiveByte b)
    | receiverSettled | startBitSeen | characterReceived | frameEnd | entryAged | quietLimitReached | periodicTransfer
    | echoClean | echoFailure | cut | skipExpiry | coldStartWaitExpiry | fallingEdge | falseStart | breakEnded =>
      exact h.execLine trivial
    | _ => cases hi

end

end Sys2Proof.Machine

namespace Sys2Proof.Proofs

open Sys2Proof.Machine

/-- Settles O57: a pool block that leaves the free ones comes into an entry or a record and returns with it, and a taken frame, of 1
to 64 bytes as the Frame Unit has checked it, keeps the table and the queue within their bounds. -/
theorem receiveKeptByStep : Obligations.ReceiveKeptByStep := by
  intro s t h hstep
  unfold step at hstep
  split at hstep
  · cases hstep
    exact h
  · next i rest _ =>
    have hs : ReceiveWhole (s.withPending rest).rxu := (receiveInv_iff (s := s)).mp h
    exact receiveInv_iff.mpr (hs.exec i t hstep)

end Sys2Proof.Proofs
end

section
/-! SUPPORT. FETCH, and every transaction without arguments at its command byte (R122, R124, R167, R178). -/

namespace Sys2Proof.Machine

variable {s : State}

/-! ### A transaction that its command byte takes (R167) -/

/-- The state in which a command byte without arguments is taken is that of its row. -/
theorem receiveAll_of_command (c : Command) (hargs : s.lpt.args = []) (hstaging : s.txs.staging = []) :
    receiveAll c [] [] s = s.withLpt
      { s.lpt with byteCount := 1, sdo := some idleByte, command := some c, state := .arguments } := by
  have htxs : { s.txs with staging := [] } = s.txs := by rw [← hstaging]
  have hlpt : { s.lpt with args := [] } = s.lpt := by rw [← hargs]
  show (s.withTxs { s.txs with staging := [] }).withLpt
    { { s.lpt with args := [] } with byteCount := 1, sdo := some idleByte, command := some c, state := .arguments } = _
  rw [htxs, hlpt]
  rfl

theorem takenByItsCode {i : Instr} {c : Command} {code : Byte} (h : transactionOf i = some (c, [], []))
    (hcode : Command.ofCode code = some c) (hnone : c.argumentTotal [] = some 0) : TakenByItsCode i code s := by
  intro hstate hargs hstaging
  have hawaits : awaits c [] [] s = true := by simp [awaits, hnone, hstate]
  have hcomplete : complete c (receiveAll c [] [] s) = true := by simp [complete, receiveAll, hnone]
  have hbyte : receiveByte code s = takeCommand c (receiveAll c [] [] s) := by
    rw [receiveAll_of_command c hargs hstaging] at hcomplete ⊢
    simp only [receiveByte, hstate, commandByte, hcode]
    exact if_pos hcomplete
  rw [exec_transaction s h, transact, if_pos hawaits, ← hbyte]
  rfl

/-! ### FETCH (R122) -/

theorem halfBytes_ofNat (n : Nat) : halfBytes (BitVec.ofNat 16 n) = [BitVec.ofNat 8 (n / 256), BitVec.ofNat 8 n] := by
  have hhigh : highByte (BitVec.ofNat 16 n) = BitVec.ofNat 8 (n / 256) := by
    apply BitVec.eq_of_toNat_eq
    rw [highByte_toNat, BitVec.toNat_ofNat, BitVec.toNat_ofNat]
    omega
  have hlow : lowByte (BitVec.ofNat 16 n) = BitVec.ofNat 8 n := by
    apply BitVec.eq_of_toNat_eq
    rw [lowByte_toNat, BitVec.toNat_ofNat, BitVec.toNat_ofNat]
    omega
  rw [halfBytes, hhigh, hlow]

/-- The reply of FETCH as 10 lays it out. -/
theorem fetchReply_eq (d : Delivery) :
    fetchReply d = [BitVec.ofNat 8 d.sender.val, BitVec.ofNat 8 (d.cls.val + 128 * d.broadcast.toNat),
      BitVec.ofNat 8 (d.length / 256), BitVec.ofNat 8 d.length, d.cycle] ++ d.blocks.flatten.take d.length := by
  rw [fetchReply, halfBytes_ofNat]
  rfl

theorem decideFetch_empty (h : s.rxu.delivery = []) : decideFetch s = refuse .empty s := by
  simp only [decideFetch, h]

theorem decideFetch_ok {d : Delivery} {rest : List Delivery} (h : s.rxu.delivery = d :: rest) :
    decideFetch s = grant (fetchReply d) (driveDlv (s.withRxu (fetched d rest s.rxu))) := by
  simp only [decideFetch, h]

/-- The answer of a transaction leaves what its owning block has not changed. -/
theorem sameOutside_answer {parts : List Part} {reply : List Byte} {u : State} (h : SameOutside parts s u) (hlpt : .lpt ∈ parts)
    (htxs : .txs ∈ parts) : SameOutside parts s (answer (grant reply u)) := by
  refine ⟨fun x hx => ?_, h.2⟩
  have hsame := h.1 x hx
  cases x with
  | lpt => exact absurd hlpt hx
  | txs => exact absurd htxs hx
  | lif | fru | ctr | stc | rxu | pmn | flt | cfg | rstLow | freeCount => exact hsame

end Sys2Proof.Machine

namespace Sys2Proof.Proofs

open Sys2Proof.Machine

/-- Settles O21: the two branches of the decision. -/
theorem fetch : Obligations.Fetch := by
  intro s hw
  have hi : transactionOf .fetch = some (.fetch, [], []) := rfl
  refine ⟨takenByItsCode hi rfl rfl, fun hempty => exec_refused hi hw (decideFetch_empty hempty), fun d rest hd => ?_⟩
  refine ⟨_, exec_granted hi hw (decideFetch_ok hd), ⟨rfl, ?_, rfl⟩, rfl, dlvNext_eq _, rfl, rfl, rfl,
    sameOutside_answer ⟨fun x hx => ?_, rfl⟩ (by decide) (by decide)⟩
  · rw [← fetchReply_eq]
    rfl
  · cases x with
    | lpt | txs | rxu => simp at hx
    | lif | fru | ctr | stc | pmn | flt | cfg | rstLow | freeCount => rfl

end Sys2Proof.Proofs
end

section
/-! SUPPORT. The rows ENTRY_AGED, QUIET_LIMIT_REACHED and PERIODIC_TRANSFER, each as the boundary reaching that one part (R58, R59,
R116, R120, R124, R152, R159; log 12). -/

namespace Sys2Proof.Machine

variable {s : State}

/-! ### The entry that ages (R116) -/

theorem agesOut_iff (s : State) (a : Addr) (k : Cls) (e : Entry) :
    agesOut s a k e = true ↔ (e.sender = a ∧ e.cls = k) ∧ e.age + 1 = s.cfg.ageLimit := by
  simp [agesOut, Entry.hasKey]

theorem TableSorted.eq_of_rank {table : List Entry} (h : TableSorted table) {e x : Entry} (he : e ∈ table) (hx : x ∈ table)
    (hr : x.rank = e.rank) : x = e := by
  have hmem : x ∈ table.filter fun y => decide (y.rank = e.rank) := List.mem_filter.mpr ⟨hx, decide_eq_true hr⟩
  rw [h.filter_rank he] at hmem
  exact List.mem_singleton.mp hmem

/-- In an ascending table the entry of the key alone ages out. -/
theorem agesOut_eq_rank (h : TableSorted s.rxu.table) {e : Entry} (he : e ∈ s.rxu.table)
    (limit : e.age + 1 = s.cfg.ageLimit) {x : Entry} (hx : x ∈ s.rxu.table) :
    agesOut s e.sender e.cls x = decide (x.rank = e.rank) := by
  rw [Bool.eq_iff_iff, agesOut_iff, decide_eq_true_eq, rank_eq_iff]
  refine ⟨fun hk => hk.1, fun hk => ⟨hk, ?_⟩⟩
  rw [h.eq_of_rank he hx ((rank_eq_iff x e).mpr hk)]
  exact limit

theorem filter_agesOut (h : TableSorted s.rxu.table) {e : Entry} (he : e ∈ s.rxu.table)
    (limit : e.age + 1 = s.cfg.ageLimit) : s.rxu.table.filter (agesOut s e.sender e.cls) = [e] := by
  rw [← h.filter_rank he]
  exact List.filter_congr fun x hx => agesOut_eq_rank h he limit hx

/-- The Receive Unit once the entry has left. -/
theorem discard_agesOut (h : TableSorted s.rxu.table) {e : Entry} (he : e ∈ s.rxu.table)
    (limit : e.age + 1 = s.cfg.ageLimit) :
    discardEntries (agesOut s e.sender e.cls) s.rxu =
      { s.rxu with free := s.rxu.free + e.blocks.length
                   table := s.rxu.table.filter fun x => !(x.sender == e.sender && x.cls == e.cls) } := by
  have hkept : s.rxu.table.filter (fun x => !agesOut s e.sender e.cls x) =
      s.rxu.table.filter fun x => !(x.sender == e.sender && x.cls == e.cls) := by
    refine List.filter_congr fun x hx => ?_
    rw [agesOut_eq_rank h he limit hx, Bool.not_inj_iff, Bool.eq_iff_iff, decide_eq_true_eq, rank_eq_iff]
    simp
  rw [discardEntries, hkept, filter_agesOut h he limit]
  rfl

/-- No entry of the key stands one boundary from the age limit. -/
theorem ageOut_none {a : Addr} {k : Cls} (h : ∀ e ∈ s.rxu.table, e.sender = a → e.cls = k → e.age + 1 ≠ s.cfg.ageLimit)
    (p : Phase) (c : Cycle) : ageOut (agesOut s a k) p c s = s := by
  have hno : ∀ e ∈ s.rxu.table, agesOut s a k e = false := fun e he => by
    rw [← Bool.not_eq_true, agesOut_iff]
    exact fun hk => h e he hk.1.1 hk.1.2 hk.2
  have hgone : s.rxu.table.filter (agesOut s a k) = [] := List.filter_eq_nil_iff.mpr fun e he => by simp [hno e he]
  have hkept : s.rxu.table.filter (fun e => !agesOut s a k e) = s.rxu.table :=
    List.filter_eq_self.mpr fun e he => by simp [hno e he]
  rw [ageOut, discardEntries, hgone, hkept]
  rfl

theorem ageOut_one {which : Entry → Bool} {e : Entry} (h : s.rxu.table.filter which = [e]) (p : Phase) (c : Cycle) :
    ageOut which p c s = raise (agedOccurrence p c e) (s.withRxu (discardEntries which s.rxu)) := by
  rw [ageOut, h]
  rfl

/-! ### What an occurrence leaves alone (R58, R59, R149) -/

section

variable {o : Occurrence} (x : Rxu)

/-- A masked or NOTED occurrence, or one that finds the station in CONFIG or SILENT. -/
theorem sameOutside_raise_stays (h : ¬ Stops o.kind s ∨ stoppable s.stc.station = false) :
    SameOutside [.rxu, .flt] s (raise o (s.withRxu x)) := by
  have hone : raise o (s.withRxu x) = (s.withRxu x).withFlt (recorded s.cfg.masks o s.flt) := by
    rcases h with hcalm | hstays
    · exact raise_calm (s := s.withRxu x) hcalm
    · exact raiseAll_unstoppable [o] (s := s.withRxu x) hstays
  rw [hone]
  refine ⟨fun part hpart => ?_, rfl⟩
  cases part with
  | rxu | flt => simp at hpart
  | lif | fru | ctr | stc | txs | pmn | lpt | cfg | rstLow | freeCount => rfl

/-- A STOPPING one with the driver OFF leads LISTEN, COLD and ACTIVE to SILENT. -/
theorem raise_silences (h : Stops o.kind s) (hs : stoppable s.stc.station = true) (ht : s.lif.tx = none) :
    raise o (s.withRxu x) = (enterSilent (s.withRxu x)).withFlt (recorded s.cfg.masks o s.flt) :=
  raiseAll_stops (os := [o]) (s := s.withRxu x) ht hs ⟨o, List.mem_singleton.mpr rfl, h⟩

/-- A STOPPING one with the driver ON waits for the cut. -/
theorem raise_waits (h : Stops o.kind s) (hs : stoppable s.stc.station = true) (ht : s.lif.tx ≠ none) :
    raise o (s.withRxu x) = ((s.withRxu x).withFlt (recorded s.cfg.masks o s.flt)).withStc
      { s.stc with pendingExit := some (s.stc.pendingExit.getD .toSilent) } := by
  rw [raise_stops (s := s.withRxu x) h, stoppingReport_on (by exact ht)]
  exact if_pos hs

end

theorem stoppable_iff (x : Station) : stoppable x = true ↔ x = .listen ∨ x = .cold ∨ x = .active := by
  cases x <;> simp [stoppable]

theorem unstoppable_iff (x : Station) : stoppable x = false ↔ x = .config ∨ x = .silent := by
  cases x <;> simp [stoppable]

/-! ### ENTRY_AGED -/

theorem exec_entryAged (ha : s.ctr.aligned = true) (a : Addr) (k : Cls) :
    exec (.entryAged a k) s = .next (ageOut (agesOut s a k) 0 (s.ctr.c + 1) s) := if_pos ha

theorem exec_entryAged_unaligned (ha : s.ctr.aligned = false) (a : Addr) (k : Cls) : exec (.entryAged a k) s = .next s :=
  if_neg (by simp [ha])

/-! ### QUIET_LIMIT_REACHED (R124, R178) -/

theorem exec_quietLimitReached (ha : s.ctr.aligned = true) (hq : s.rxu.quiet + 1 = s.cfg.quietLimit) :
    exec .quietLimitReached s = .next (driveDlv (s.withRxu (quietBoundary s.cfg.quietLimit s.rxu))) := if_pos ⟨ha, hq⟩

theorem exec_quietLimitReached_stay (h : s.ctr.aligned = false ∨ s.rxu.quiet + 1 ≠ s.cfg.quietLimit) :
    exec .quietLimitReached s = .next s := by
  refine if_neg fun ⟨ha, hq⟩ => ?_
  rcases h with h | h
  · rw [ha] at h
    cases h
  · exact h hq

/-- The quiet counter reaches Q while records wait, and the quiet flag is set. -/
theorem quietBoundary_reached {x : Rxu} {limit : Nat} (hd : x.delivery ≠ []) (hq : x.quiet + 1 = limit) :
    quietBoundary limit x = { x with quiet := limit, quietFlag := true } := by
  subst hq
  rw [quietBoundary_eq, quietAfter, if_pos ⟨hd, Nat.lt_succ_self _⟩]
  simp

/-! ### PERIODIC_TRANSFER (R159) -/

theorem exec_periodicTransfer (ha : s.ctr.aligned = true) (hm : s.cfg.reportMode = .periodic)
    (hp : s.flt.period + 1 = s.cfg.reportPeriod) :
    exec .periodicTransfer s = .next (s.withFlt { transfer s.flt with period := 0 }) := by
  have hboundary : periodBoundary s.cfg s.flt = { transfer s.flt with period := 0 } := by
    simp only [periodBoundary, hm]
    exact if_pos hp
  rw [← hboundary]
  exact if_pos ⟨ha, hm, hp⟩

theorem exec_periodicTransfer_stay
    (h : s.ctr.aligned = false ∨ s.cfg.reportMode = .onDemand ∨ s.flt.period + 1 ≠ s.cfg.reportPeriod) :
    exec .periodicTransfer s = .next s := by
  refine if_neg fun ⟨ha, hm, hp⟩ => ?_
  rcases h with h | h | h
  · rw [ha] at h
    cases h
  · rw [hm] at h
    cases h
  · exact h hp

end Sys2Proof.Machine

namespace Sys2Proof.Proofs

open Sys2Proof.Machine

/-- Settles O49: the entry of the key is the only one that leaves, and its AGED reaches the station as any occurrence does. -/
theorem boundaryRows : Obligations.BoundaryRows := by
  refine ⟨fun a k s ha hwf => ⟨fun e he hsender hcls hage => ?_, fun hno => ?_⟩, fun s ha => ⟨fun hd hq => ?_, fun hm hp => ?_,
    fun hq => ?_, fun hp => ?_⟩, fun a k s ha => ⟨?_, ?_, ?_⟩⟩
  · subst hsender hcls
    have hone := ageOut_one (filter_agesOut hwf.keys he hage) 0 (s.ctr.c + 1)
    refine ⟨_, exec_entryAged ha _ _, ?_, ?_, fun hcalm => ?_, fun _ hs => ?_, fun hstops hs => ⟨fun ht => ?_, fun ht => ?_⟩⟩
    · rw [ageOut_rxu, discard_agesOut hwf.keys he hage]
    · rw [ageOut_flt, filter_agesOut hwf.keys he hage]
      rfl
    · rw [hone]
      exact sameOutside_raise_stays _ (.inl hcalm)
    · rw [hone]
      exact sameOutside_raise_stays _ (.inr ((unstoppable_iff _).mpr hs))
    · rw [hone, raise_silences _ hstops ((stoppable_iff _).mpr hs) ht]
      refine ⟨rfl, rfl, rfl, rfl, fun part hpart => ?_, rfl⟩
      cases part with
      | rxu | flt | stc | ctr | txs => simp at hpart
      | lif | fru | pmn | lpt | cfg | rstLow | freeCount => rfl
    · rw [hone, raise_waits _ hstops ((stoppable_iff _).mpr hs) ht]
      refine ⟨rfl, fun part hpart => ?_, rfl⟩
      cases part with
      | rxu | flt | stc => simp at hpart
      | lif | fru | ctr | txs | pmn | lpt | cfg | rstLow | freeCount => rfl
  · rw [exec_entryAged ha, ageOut_none hno]
  · have hreached := quietBoundary_reached hd hq
    refine ⟨_, exec_quietLimitReached ha hq, hreached, ?_, ?_, fun part hpart => ?_, rfl⟩
    · rw [hreached]
      exact Bool.or_true _
    · rw [hreached]
      exact congrArg (fun level => { s.lpt with dlvReq := level }) (dlvNext_eq _)
    · cases part with
      | rxu | lpt => simp at hpart
      | lif | fru | ctr | stc | txs | pmn | flt | cfg | rstLow | freeCount => rfl
  · exact exec_periodicTransfer ha hm hp
  · exact exec_quietLimitReached_stay (.inr hq)
  · exact exec_periodicTransfer_stay (.inr hp)
  · exact exec_entryAged_unaligned ha a k
  · exact exec_quietLimitReached_stay (.inl ha)
  · exact exec_periodicTransfer_stay (.inl ha)

end Sys2Proof.Proofs
end

section
/-! SUPPORT. What each operation on a taken frame does at the Receive Unit and what it reports, whatever stands beside the Receive
Unit (R107 to R115, R120). -/

namespace Sys2Proof.Machine

/-! ### Operations on the Receive Unit -/

/-- An operation that finds the Receive Unit as `x` leaves it as `y` and reports these occurrences. -/
def Turns (op : State → State) (x y : Rxu) (os : List Occurrence) : Prop :=
  ∀ b : State, b.rxu = x → (op b).rxu = y ∧ Reported os b (op b)

theorem Turns.comp {op op' : State → State} {x y z : Rxu} {os os' : List Occurrence} (h : Turns op x y os)
    (h' : Turns op' y z os') : Turns (fun b => op' (op b)) x z (os ++ os') := by
  intro b hb
  obtain ⟨hrxu, hreported⟩ := h b hb
  obtain ⟨hrxu', hreported'⟩ := h' (op b) hrxu
  exact ⟨hrxu', hreported.trans hreported'⟩

theorem Turns.of_eq {op op' : State → State} {x y : Rxu} {os : List Occurrence} (h : Turns op x y os)
    (he : ∀ b : State, b.rxu = x → op' b = op b) : Turns op' x y os := by
  intro b hb
  rw [he b hb]
  exact h b hb

theorem turns_id (x : Rxu) : Turns id x x [] := fun b hb => ⟨hb, Reported.refl b⟩

theorem turns_withRxu (x y : Rxu) : Turns (fun b => b.withRxu y) x y [] := fun b _ => ⟨rfl, reported_withRxu b y⟩

theorem turns_driveDlv (x : Rxu) : Turns driveDlv x x [] := fun b hb => ⟨hb, reported_driveDlv b⟩

theorem turns_raise (o : Occurrence) (x : Rxu) : Turns (raise o) x x [o] := fun b hb =>
  ⟨(raise_rxu b o).trans hb, reported_raise o b⟩

/-- A record or an entry given up for an occurrence. -/
theorem turns_lose (o : Occurrence) (x y : Rxu) : Turns (fun b => raise o (b.withRxu y)) x y [o] :=
  (turns_withRxu x y).comp (turns_raise o y)

section

variable (g : TakenFrame) {x : Rxu}

/-! ### A segment 0 (R109, R111) -/

theorem turns_takeSingle (room : RoomToDeliver x) :
    Turns (takeSingle g) x
      { x with free := x.free - 1, quiet := 0
               delivery := x.delivery ++ [⟨g.sender, g.cls, g.broadcast, g.length, [g.payload], g.cycle⟩] } [] := by
  refine ((turns_withRxu x _).comp (turns_driveDlv _)).of_eq ?_
  rintro b rfl
  exact if_pos ((deliveryRoom_iff _).mpr room)

theorem turns_takeSingle_full (full : ¬ RoomToDeliver x) :
    Turns (takeSingle g) x x [frameOccurrence .noSpace g] := by
  refine (turns_raise _ x).of_eq ?_
  rintro b rfl
  exact if_neg (mt (deliveryRoom_iff _).mp full)

theorem turns_takeFirst (place : x.table.length < 8) (room : 1 ≤ x.free) :
    Turns (takeFirst g) x
      { x with free := x.free - 1
               table := insertEntry ⟨g.sender, g.cls, g.number, g.broadcast, 1, [g.payload], 0⟩ x.table } [] := by
  refine (turns_withRxu x _).of_eq ?_
  rintro b rfl
  exact if_pos ⟨place, room⟩

theorem turns_takeFirst_full (full : ¬ (x.table.length < 8 ∧ 1 ≤ x.free)) :
    Turns (takeFirst g) x x [frameOccurrence .noSpace g] := by
  refine (turns_raise _ x).of_eq ?_
  rintro b rfl
  exact if_neg full

theorem turns_replaceEntry_none (h : findEntry g.sender g.cls x = none) : Turns (replaceEntry g) x x [] := by
  refine (turns_id x).of_eq ?_
  rintro b rfl
  simp only [replaceEntry, h, id]

theorem turns_replaceEntry {e : Entry} (h : findEntry g.sender g.cls x = some e) :
    Turns (replaceEntry g) x (discardEntry g.sender g.cls x) [frameOccurrence .sequence g] := by
  refine (turns_lose _ x _).of_eq ?_
  rintro b rfl
  simp only [replaceEntry, h]

variable {g}

/-- A whole message in one segment, after step 1. -/
theorem turns_single {y z : Rxu} {os os' : List Occurrence} (index : g.index = 0) (last : g.last = true)
    (h : Turns (replaceEntry g) x y os) (h' : Turns (takeSingle g) y z os') : Turns (takeFrame g) x z (os ++ os') :=
  (h.comp h').of_eq fun b _ => by rw [takeFrame, if_pos index, if_pos last]

/-- The first segment of a longer message, after step 1. -/
theorem turns_first {y z : Rxu} {os os' : List Occurrence} (index : g.index = 0) (last : g.last = false)
    (h : Turns (replaceEntry g) x y os) (h' : Turns (takeFirst g) y z os') : Turns (takeFrame g) x z (os ++ os') :=
  (h.comp h').of_eq fun b _ => by rw [takeFrame, if_pos index, if_neg (by simp [last])]

/-! ### A continuation (R112 to R115) -/

theorem takeFrame_continuation (index : 1 ≤ g.index) (s : State) : takeFrame g s = takeContinuation g s :=
  if_neg (Nat.pos_iff_ne_zero.mp index)

theorem turns_orphan (index : 1 ≤ g.index) (h : findEntry g.sender g.cls x = none) : Turns (takeFrame g) x x [] := by
  refine (turns_id x).of_eq ?_
  rintro b rfl
  simp only [takeFrame_continuation index, takeContinuation, h, id]

variable {e : Entry}

theorem turns_contradiction (index : 1 ≤ g.index) (h : findEntry g.sender g.cls x = some e)
    (differs : e.next ≠ g.index ∨ e.number ≠ g.number) :
    Turns (takeFrame g) x (discardEntry g.sender g.cls x) [frameOccurrence .sequence g] := by
  refine (turns_lose _ x _).of_eq ?_
  rintro b rfl
  simp only [takeFrame_continuation index, takeContinuation, h]
  exact if_neg (not_and_or.mpr differs)

section

variable (index : 1 ≤ g.index) (h : findEntry g.sender g.cls x = some e) (next : e.next = g.index)
  (number : e.number = g.number)
include index h next number

theorem takeFrame_agrees {b : State} (hb : b.rxu = x) :
    takeFrame g b = if g.last then takeLast g e b else takeMiddle g e b := by
  subst hb
  simp only [takeFrame_continuation index, takeContinuation, h]
  exact if_pos ⟨next, number⟩

theorem turns_middle (last : g.last = false) (room : 1 ≤ x.free) :
    Turns (takeFrame g) x
      { x with free := x.free - 1
               table := insertEntry { e with next := e.next + 1, blocks := e.blocks ++ [g.payload], age := 0 }
                 (removeEntry g.sender g.cls x).table } [] := by
  refine (turns_withRxu x _).of_eq ?_
  rintro b rfl
  rw [takeFrame_agrees index h next number rfl, if_neg (by simp [last])]
  exact if_pos room

theorem turns_last (last : g.last = true) (room : RoomToDeliver x) :
    Turns (takeFrame g) x
      { x with free := x.free - 1, quiet := 0
               table := (removeEntry g.sender g.cls x).table
               delivery := x.delivery ++ [⟨e.sender, e.cls, e.broadcast, 64 * e.next + g.length,
                 e.blocks ++ [g.payload], g.cycle⟩] } [] := by
  refine ((turns_withRxu x _).comp (turns_driveDlv _)).of_eq ?_
  rintro b rfl
  rw [takeFrame_agrees index h next number rfl, if_pos last]
  exact if_pos ((deliveryRoom_iff _).mpr room)

/-- A continuation that finds no room takes its entry with it. -/
theorem turns_continuation_full (full : if g.last = true then ¬ RoomToDeliver x else x.free = 0) :
    Turns (takeFrame g) x (discardEntry g.sender g.cls x) [frameOccurrence .noSpace g] := by
  refine (turns_lose _ x _).of_eq ?_
  rintro b rfl
  rw [takeFrame_agrees index h next number rfl]
  cases hl : g.last with
  | true =>
    rw [if_pos hl] at full
    exact if_neg (mt (deliveryRoom_iff _).mp full)
  | false =>
    rw [if_neg (by simp [hl])] at full
    have hnone : ¬ 0 < b.rxu.free := by omega
    exact if_neg hnone

end

end

/-! ### The frame end of a taken frame in step -/

section

variable {s : State}

theorem runTasks_took {o : Config.FrameEndOrder} {k : Work} {g : TakenFrame} (fault : k.fault = none)
    (took : k.taken = some g) (whole : Bool) (p : Phase) (c : Cycle) (v : State) :
    runTasks k whole p c (tasksBefore o false) v = takeFrame g v := by
  rw [tasksBefore_inside]
  split <;> simp [runTasks, runTask, fault, took, raiseAll_nil]

/-- A phase end inside a cycle with nothing but a taken frame: the frame, then the phase start, the heard credit before or after. -/
theorem phaseEndWith_took (o : Config.FrameEndOrder) {k : Work} {u : State} {g : TakenFrame} (hm : MidCycle u)
    (fault : k.fault = none) (took : k.taken = some g) :
    ∃ x y, phaseEndWith o k u = (phaseStart (takeFrame g ((advancedInside k.errors u).withPmn x))).withPmn y := by
  have hbegin : countAtEnd o false k.errors (u.withCtr (advanced u)) = advancedInside k.errors u := by
    rw [advanced_inside hm.not_endsCycle, if_pos hm.1]
    rfl
  by_cases hc : o.creditFirst = true
  · refine ⟨creditedPmn k u.pmn, (phaseStart (takeFrame g (creditHeard k (advancedInside k.errors u)))).pmn, ?_⟩
    have he : phaseEndWith o k u = phaseStart (takeFrame g (creditHeard k (advancedInside k.errors u))) := by
      simp only [phaseEndWith, hm.not_endsCycle, hbegin, hc, hm.1, runTasks_took fault took, if_true, Bool.false_and,
        Bool.false_eq_true, if_false]
    rw [he, creditHeard_eq]
    rfl
  · refine ⟨u.pmn, creditedPmn k u.pmn, ?_⟩
    simp only [phaseEndWith, hm.not_endsCycle, hbegin, hc, hm.1, runTasks_took fault took, if_true, Bool.false_and,
      Bool.false_eq_true, if_false, creditHeard_eq, phaseStart_pmn, takeFrame_pmn]
    rfl

/-- Where the reports of a frame leave an ACTIVE or SILENT station, over the start of the phase that follows (R28, R58, R102). -/
theorem Reported.stationAfter {os : List Occurrence} {b v : State} {q : Phase} (h : Reported os b v) (stc : b.stc = s.stc)
    (lif : b.lif = s.lif) (txs : b.txs = s.txs) (cfg : b.cfg = s.cfg) (table : b.ctr.table = s.ctr.table)
    (p : b.ctr.p = q) (off : s.lif.tx = none) (hs : s.stc.station = .active ∨ s.stc.station = .silent) :
    StationAfter (∃ o ∈ os, Stops o.kind s) q s (phaseStart v) := by
  have hstops : ∀ k, Stops k b ↔ Stops k s := fun k => by
    show hasKind b.cfg.masks k = false ∧ hasKind b.cfg.severities k = true ↔ _
    rw [cfg]
  have hlif : v.lif = s.lif := h.lif.trans lif
  have hstart : ∀ {station}, v.stc.station = station → NotOffered q station s →
      phaseStart v = v.withCtr { v.ctr with skip := .running 2 } := fun hstation hno => by
    refine phaseStart_of_notOffered ?_ hstation ?_ (h.cfg.trans cfg) hno
    · rw [h.tracked]
      exact p
    · rw [h.tracked]
      exact table
  have hstoppable := stoppable_active_silent hs
  have hstation := h.station (by rw [lif]; exact off)
  simp only [stc, hstops] at hstation
  rcases hstation with ⟨hactive, hos, hvstc, hvtxs, -⟩ | ⟨hcalm, hvstc, hvtxs, -⟩
  · refine ⟨fun _ => ?_, fun hn => absurd hos hn⟩
    rw [hstart (station := .silent) (by rw [hvstc]; rfl) (.inr nofun)]
    have hne : s.stc.station ≠ .silent := by rw [hstoppable.mp hactive]; exact nofun
    refine ⟨⟨fun hsilent => absurd hsilent hne, fun _ => ⟨?_, ?_⟩⟩, hlif⟩
    · simp only [State.withCtr_stc, hvstc]
      rw [← stc]
      rfl
    · show v.txs = _
      rw [hvtxs, txs]
      rfl
  · refine ⟨fun ⟨o, ho, hstop⟩ => ?_, fun _ => ⟨?_, fun hno => ?_⟩⟩
    · have hsilent : s.stc.station = .silent :=
        hs.resolve_left fun hactive => hcalm (hstoppable.mpr hactive) o ho hstop
      rw [hstart (station := .silent) (by rw [hvstc, hsilent]) (.inr nofun)]
      exact ⟨⟨fun _ => ⟨hvstc, hvtxs.trans txs⟩, fun hne => absurd hsilent hne⟩, hlif⟩
    · rw [phaseStart_stc, hvstc]
    · rw [hstart (by rw [hvstc]) hno]
      exact ⟨hlif, hvtxs.trans txs⟩

/-- The frame that the Receive Unit takes, with the p and c of its frame end (R106, R152). -/
abbrev takenHere (f : Gather) (s : State) : TakenFrame := takenFrame f s s.ctr.p s.ctr.c

theorem TakenInStep.took {f : Gather} (h : TakenInStep f s) : Taken f s :=
  ⟨h.data, h.aligned, h.inStep.station, h.destination⟩

/-- The frame end of a taken frame in step shows what the frame does at the Receive Unit and what it reports, and nothing else
reaches the Receive Unit, the Fault Unit and the station. -/
theorem TakenInStep.ends {f : Gather} (h : TakenInStep f s) :
    ∃ t, exec .frameEnd s = .next t ∧
      ∀ (y : Rxu) (os : List Occurrence) (stops : Prop),
        Turns (takeFrame (takenHere f s)) { s.rxu with segBuf := [] } y os → ((∃ o ∈ os, Stops o.kind s) ↔ stops) →
        t.rxu = y ∧ t.flt = recordedAll s.cfg.masks os s.flt ∧ StationAfter stops (phaseAfter s.ctr.p) s t := by
  obtain ⟨hends, hm, hphase, hcycle, hstation⟩ := h.inStep
  obtain ⟨o, k, u, ha⟩ := advances_inStep hends hm.1 hphase hcycle
  have htaken : k.taken = some (takenHere f s) := by
    obtain ⟨p, c, hk, ⟨rfl, rfl, -⟩ | ⟨-, rfl, rfl, -⟩⟩ := ha.took
    · rw [hk, if_pos h.took]
      rfl
    · rw [hk, if_pos h.took]
      rfl
  have hctr := ha.ctr
  have hmid : MidCycle u := ⟨by rw [hctr], by rw [hctr]; exact hm.2⟩
  obtain ⟨x, z, he⟩ := phaseEndWith_took o hmid ha.fault htaken
  have herrors : k.errors = 0 := by
    rw [ha.errors]
    show counted s.cfg.selection .clean (patternErrors f) = 0
    rw [hends.data_iff.mp h.data, counted_clean_data]
  refine ⟨_, ha.exec_eq, fun y os stops hturns hstops => ?_⟩
  rw [he, herrors, ← propext hstops]
  obtain ⟨hrxu, hreported⟩ := hturns ((advancedInside 0 u).withPmn x) ha.rxu
  refine ⟨?_, ?_, ?_⟩
  · rw [State.withPmn_rxu, phaseStart_rxu, hrxu]
  · have hflt : ((advancedInside 0 u).withPmn x).flt = s.flt := (countErrors_zero u.flt).trans ha.flt
    have hcfg : ((advancedInside 0 u).withPmn x).cfg = s.cfg := ha.cfg
    rw [State.withPmn_flt, phaseStart_flt, hreported.flt, hflt, hcfg]
  · have hline : u.lif = s.lif := by simpa [LineStands] using ha.line
    refine hreported.stationAfter (b := (advancedInside 0 u).withPmn x) ha.stc hline ha.txs ha.cfg ?_ ?_ hends.free.1
      hstation
    · show u.ctr.table = _
      rw [hctr]
    · show phaseAfter u.ctr.p = _
      rw [hctr]

end

end Sys2Proof.Machine
end

section
/-! SUPPORT. A taken frame in step that is kept, and one that costs a message (R109 to R115, R120). -/

namespace Sys2Proof.Machine

variable {f : Gather} {x : Rxu} {e : Entry}

/-! ### The table in the words of the statements -/

theorem mem_insertEntry {y : Entry} {l : List Entry} : y ∈ insertEntry e l ↔ y ∈ l ∨ y = e := by
  rw [(insertEntry_perm e l).mem_iff, List.mem_cons, or_comm]

theorem mem_removeEntry_iff {a : Addr} {k : Cls} : e ∈ (removeEntry a k x).table ↔ e ∈ x.table ∧ ¬ (e.sender = a ∧ e.cls = k) := by
  simp [removeEntry, Entry.hasKey, imp_iff_not_or]

theorem findEntry_of_fresh {a : Addr} {k : Cls} (h : ∀ e ∈ x.table, ¬ (e.sender = a ∧ e.cls = k)) : findEntry a k x = none :=
  List.find?_eq_none.mpr fun e he hk => h e he (by simpa [Entry.hasKey] using hk)

theorem not_roomToDeliver (h : x.free = 0 ∨ 16 ≤ x.delivery.length) : ¬ RoomToDeliver x := by
  rintro ⟨hfree, hqueue⟩
  omega

/-! ### A discarded entry makes room (R109, R111) -/

theorem le_entryBlocks {l : List Entry} (he : e ∈ l) : e.blocks.length ≤ entryBlocks l := by
  rw [entryBlocks_perm (List.perm_cons_erase he), entryBlocks_cons]
  exact Nat.le_add_right _ _

/-- The discarded entry of a frame's key leaves a free pool block and a place in the table. -/
theorem discardEntry_room {s : State} (hwf : ReassemblyWf s) (he : findEntry (senderOf f.bytes) (classOf f.bytes) s.rxu = some e) :
    1 ≤ (discardEntry (senderOf f.bytes) (classOf f.bytes) s.rxu).free ∧
      (discardEntry (senderOf f.bytes) (classOf f.bytes) s.rxu).table.length < 8 := by
  obtain ⟨hmem, hkey⟩ := findEntry_some he
  obtain ⟨hheld, hlow, -⟩ := hwf.blocks e hmem
  have hgone : e ∈ s.rxu.table.filter (Entry.hasKey (senderOf f.bytes) (classOf f.bytes)) :=
    List.mem_filter.mpr ⟨hmem, (hasKey_iff f e).mpr hkey⟩
  constructor
  · have hblocks := le_entryBlocks hgone
    show 1 ≤ s.rxu.free + entryBlocks (s.rxu.table.filter (Entry.hasKey (senderOf f.bytes) (classOf f.bytes)))
    omega
  · rw [discardEntry_eq]
    have hplaces := (perm_withoutKey hwf.keys hmem hkey).length_eq
    rw [List.length_cons] at hplaces
    have := hwf.bound
    omega

end Sys2Proof.Machine

namespace Sys2Proof.Proofs

open Sys2Proof.Machine

/-- Settles O36: each way in which a frame is kept, as its operation turns the Receive Unit and reports nothing. -/
theorem takenFrameKept : Obligations.TakenFrameKept := by
  intro f s h a k payload broadcast
  obtain ⟨t, hexec, hends⟩ := h.ends
  have hcalm : (∃ o ∈ ([] : List Occurrence), Stops o.kind s) ↔ False := by simp
  refine ⟨t, hexec, fun hfresh => ?_, fun e he hindex hnext hnumber hroom => ?_⟩
  · have hnone : findEntry a k { s.rxu with segBuf := [] } = none := findEntry_of_fresh hfresh
    refine ⟨fun hindex hlast hroom hplaces => ?_, fun hindex hlast hroom hplaces => ?_, fun hindex => ?_⟩
    · exact hends _ _ _ (turns_single hindex hlast (turns_replaceEntry_none _ hnone) (turns_takeSingle _ ⟨hroom, hplaces⟩))
        hcalm
    · obtain ⟨hrxu, hflt, hafter⟩ := hends _ _ _ (turns_first hindex hlast (turns_replaceEntry_none _ hnone)
        (turns_takeFirst _ hplaces hroom)) hcalm
      rw [hrxu]
      exact ⟨rfl, fun _ => mem_insertEntry, hflt, hafter⟩
    · exact hends _ _ _ (turns_orphan hindex hnone) hcalm
  · have hfind : findEntry a k { s.rxu with segBuf := [] } = some e := he
    obtain ⟨-, hsender, hcls⟩ := findEntry_some he
    refine ⟨fun hlast => ?_, fun hlast hplaces => ?_⟩
    · obtain ⟨hrxu, hflt, hafter⟩ := hends _ _ _ (turns_middle hindex hfind hnext hnumber hlast hroom) hcalm
      rw [hrxu]
      exact ⟨rfl, fun _ => mem_insertEntry.trans (or_congr_left mem_removeEntry_iff), hflt, hafter⟩
    · obtain ⟨hrxu, hflt, hafter⟩ := hends _ _ _ (turns_last hindex hfind hnext hnumber hlast ⟨hroom, hplaces⟩) hcalm
      refine ⟨?_, hflt, hafter⟩
      rw [hrxu, hsender, hcls]
      rfl

/-- Settles O37: each way in which a frame costs a message, as its operation turns the Receive Unit and reports its faults. -/
theorem takenFrameLost : Obligations.TakenFrameLost := by
  intro f s h a k payload broadcast without freed occurrence
  obtain ⟨t, hexec, hends⟩ := h.ends
  have hone : ∀ kind, (∃ o ∈ [occurrence kind], Stops o.kind s) ↔ Stops kind s := fun kind => by simp [occurrence]
  have hboth : (∃ o ∈ [occurrence .sequence, occurrence .noSpace], Stops o.kind s) ↔ Stops .sequence s ∨ Stops .noSpace s := by
    simp [occurrence]
  refine ⟨t, hexec, fun e he hindex hdiffers => ?_, fun e he hindex hnext hnumber hfull => ?_,
    fun hnone hindex hfull => ?_, fun e he hindex hwf => ?_⟩
  · exact hends _ _ _ (turns_contradiction (e := e) hindex he hdiffers) (hone .sequence)
  · refine hends _ _ _ (turns_continuation_full (e := e) hindex he hnext hnumber ?_) (hone .noSpace)
    split
    · next hlast => exact not_roomToDeliver (hfull.imp id And.right)
    · next hlast => exact hfull.resolve_right fun hl => hlast hl.1
  · have hfind : findEntry a k { s.rxu with segBuf := [] } = none := hnone
    cases hlast : lastOf f.bytes with
    | true =>
      refine hends _ _ _ (turns_single hindex hlast (turns_replaceEntry_none _ hfind) (turns_takeSingle_full _ ?_))
        (hone .noSpace)
      exact not_roomToDeliver (hfull.imp id fun h => (h.resolve_right fun hf => by simp [hlast] at hf).2)
    | false =>
      refine hends _ _ _ (turns_first hindex hlast (turns_replaceEntry_none _ hfind) (turns_takeFirst_full _ ?_))
        (hone .noSpace)
      rintro ⟨hplace, hroom⟩
      rcases hfull with hf | hf | hf
      · exact absurd hf (Nat.pos_iff_ne_zero.mp hroom)
      · simp [hlast] at hf
      · exact absurd hf.2 (Nat.not_le_of_lt hplace)
  · have hfind : findEntry a k { s.rxu with segBuf := [] } = some e := he
    have hreplaced := turns_replaceEntry (takenHere f s) hfind
    obtain ⟨hroom, hplace⟩ := discardEntry_room hwf he
    refine ⟨fun hlast => ?_, fun hlast hqueue => ?_, fun hlast hqueue => ?_⟩
    · obtain ⟨hrxu, hflt, hafter⟩ := hends _ _ _ (turns_first hindex hlast hreplaced (turns_takeFirst _ hplace hroom))
        (hone .sequence)
      rw [hrxu]
      exact ⟨rfl, fun _ => mem_insertEntry, hflt, hafter⟩
    · exact hends _ _ _ (turns_single hindex hlast hreplaced (turns_takeSingle _ ⟨hroom, hqueue⟩)) (hone .sequence)
    · exact hends _ _ _ (turns_single hindex hlast hreplaced (turns_takeSingle_full _ (not_roomToDeliver (.inr hqueue)))) hboth

end Sys2Proof.Proofs
end

section
/-! SUPPORT. PEERS: the records of a range in the reply, and their change flags cleared (R144; 10, PEERS). -/

namespace Sys2Proof.Machine

variable {first count : Nat} {s : State}

theorem addr_of_range {j : Nat} (h : first + count ≤ 32) (hj : j < count) : (Fin.ofNat 32 (first + j)).val = first + j :=
  Nat.mod_eq_of_lt (by omega)

/-- The addresses of a range that lies in the peer table, counted up from the first. -/
theorem peerRange_eq (h : first + count ≤ 32) :
    peerRange first count = (List.range count).map fun j => Fin.ofNat 32 (first + j) := by
  have hrange : (peerRange first count).Pairwise (· < ·) := (List.pairwise_lt_finRange 32).filter _
  have hcounted : ((List.range count).map fun j => (Fin.ofNat 32 (first + j) : Addr)).Pairwise (· < ·) := by
    refine List.pairwise_map.mpr (List.pairwise_lt_range.imp_of_mem fun {j k} hj hk hlt => ?_)
    rw [Fin.lt_def, addr_of_range h (List.mem_range.mp hj), addr_of_range h (List.mem_range.mp hk)]
    omega
  refine hrange.eq_of_mem_iff hcounted fun a => ?_
  simp only [peerRange, List.mem_filter, List.mem_finRange, true_and, Bool.and_eq_true, decide_eq_true_iff, List.mem_map,
    List.mem_range]
  constructor
  · intro ⟨hle, hlt⟩
    refine ⟨a.val - first, by omega, Fin.ext ?_⟩
    rw [addr_of_range h (by omega)]
    omega
  · rintro ⟨j, hj, rfl⟩
    rw [addr_of_range h hj]
    omega

/-- The bytes of the records of such a range, one record after the other. -/
theorem flatten_peerRange (h : first + count ≤ 32) (bytes : Addr → List Byte) :
    ((peerRange first count).map bytes).flatten = (List.range count).flatMap fun j => bytes (Fin.ofNat 32 (first + j)) := by
  rw [peerRange_eq h, List.map_map, ← List.flatMap_def]
  rfl

/-- The reply bytes of one record as 10 lays them out. -/
theorem peerReply_eq {a : Addr} {n : Nat} (h : a.val = n) (r : Peer) : peerReply a r =
    [BitVec.ofNat 8 n, BitVec.ofNat 8 r.presence.code,
     BitVec.ofNat 8 (r.silentRun + 4 * r.returnRun + 8 * r.quality.code + 32 * r.mismatch.toNat +
       64 * r.presenceChanged.toNat + 128 * r.qualityChanged.toNat),
     BitVec.ofNat 8 (r.lastErrors.getD 255), BitVec.ofNat 8 r.lastHeard.isSome.toNat, r.lastHeard.getD 0,
     BitVec.ofNat 8 r.owned] := by
  have hheard : packBits [r.lastHeard.isSome] = BitVec.ofNat 8 r.lastHeard.isSome.toNat := by
    cases r.lastHeard <;> rfl
  rw [← hheard, ← h]
  unfold peerReply
  cases r.lastErrors <;> rfl

theorem peersRead_peers (x : Pmn) (a : Addr) : (peersRead first count x).peers[a] =
    if first ≤ a.val ∧ a.val < first + count then
      { x.peers[a] with presenceChanged := false, qualityChanged := false }
    else x.peers[a] := by
  simp [peersRead, Peer.read]

theorem peersRead_marks (x : Pmn) : (peersRead first count x).marks = x.marks := by rw [peersRead]

theorem decidePeers_rejected (hf : arg s.lpt.args 0 = first) (hc : arg s.lpt.args 1 = count)
    (h : 31 < first ∨ count = 0 ∨ 32 < count ∨ 32 < first + count) : decidePeers s = refuse .rejected s := by
  rw [← hf, ← hc] at h
  exact if_pos h

theorem decidePeers_ok (hf : arg s.lpt.args 0 = first) (hc : arg s.lpt.args 1 = count)
    (h : ¬ (31 < first ∨ count = 0 ∨ 32 < count ∨ 32 < first + count)) :
    decidePeers s = grant ((peerRange first count).map fun a => peerReply a s.pmn.peers[a]).flatten
      (s.withPmn (peersRead first count s.pmn)) := by
  rw [← hf, ← hc] at h ⊢
  exact if_neg h

end Sys2Proof.Machine

namespace Sys2Proof.Proofs

open Sys2Proof.Machine

/-- Settles O23: the two branches of the decision; the range counts its addresses up from the first. -/
theorem peers : Obligations.Peers := by
  intro first count s hw
  have hi : transactionOf (.peers first count) = some (.peers, [first, count], []) := rfl
  have hcount : count.toNat = 0 ↔ count = 0 := BitVec.toNat_inj (y := 0)
  split
  · next hrange =>
    exact exec_refused hi hw (decidePeers_rejected (first := first.toNat) (count := count.toNat) rfl rfl
      (hrange.imp_right (Or.imp_left hcount.mpr)))
  · next hrange =>
    have hsum : first.toNat + count.toNat ≤ 32 := Nat.le_of_not_lt fun h => hrange (.inr (.inr (.inr h)))
    have hdecide := decidePeers_ok (first := first.toNat) (count := count.toNat) (s := receiveAll .peers [first, count] [] s)
      rfl rfl fun h => hrange (h.imp_right (Or.imp_left hcount.mp))
    refine ⟨_, exec_granted hi hw hdecide, ⟨rfl, ?_, rfl⟩, fun a => ?_, peersRead_marks s.pmn, rfl, ⟨rfl, rfl, rfl⟩,
      sameOutside_answer ⟨fun x hx => ?_, rfl⟩ (by decide) (by decide)⟩
    · refine congrArg (Result.ok.code :: ·) ((flatten_peerRange hsum _).trans (List.flatMap_congr fun j hj => ?_))
      exact peerReply_eq (addr_of_range hsum (List.mem_range.mp hj)) _
    · show (peersRead first.toNat count.toNat s.pmn).peers[a] = _
      exact peersRead_peers s.pmn a
    · cases x with
      | lpt | txs | pmn => simp at hx
      | lif | fru | ctr | stc | rxu | flt | cfg | rstLow | freeCount => rfl

end Sys2Proof.Proofs
end

section
/-! SUPPORT. One peer record over a whole or a partial cycle: what an evaluation moves and captures, and what it leaves alone (R133,
R136 to R138, R142). -/

namespace Sys2Proof.Machine

variable {cfg : Items} {heard : Bool} {r : Peer}

/-! ### One evaluation -/

/-- The record as the policy in force moves it, its capture apart (R137, R138). -/
def policyStep (cfg : Items) (heard : Bool) (r : Peer) : Peer :=
  match cfg.presence with
  | .tolerant => tolerantStep heard r
  | .strict => strictStep heard r

theorem evaluate_eq_policyStep (cfg : Items) (heard : Bool) (r : Peer) : evaluate cfg heard r =
    { policyStep cfg heard r with
      presenceChanged := r.presenceChanged ||
        capturesPresence cfg.presenceCapture r.presence (policyStep cfg heard r).presence } := rfl

theorem policyStep_tolerant (h : cfg.presence = .tolerant) : policyStep cfg heard r = tolerantStep heard r := by
  simp only [policyStep, h]

theorem policyStep_strict (h : cfg.presence = .strict) : policyStep cfg heard r = strictStep heard r := by
  simp only [policyStep, h]

/-- A record moves in its presence and its runs alone (R137, R138). -/
theorem tolerantStep_eq (heard : Bool) (r : Peer) : tolerantStep heard r =
    { r with
      presence := (tolerantStep heard r).presence
      silentRun := (tolerantStep heard r).silentRun
      returnRun := (tolerantStep heard r).returnRun } := by
  fun_cases tolerantStep heard r <;> rfl

theorem strictStep_eq (heard : Bool) (r : Peer) : strictStep heard r =
    { r with
      presence := (strictStep heard r).presence
      silentRun := (strictStep heard r).silentRun
      returnRun := (strictStep heard r).returnRun } := by
  fun_cases strictStep heard r <;> rfl

theorem policyStep_eq (cfg : Items) (heard : Bool) (r : Peer) : policyStep cfg heard r =
    { r with
      presence := (policyStep cfg heard r).presence
      silentRun := (policyStep cfg heard r).silentRun
      returnRun := (policyStep cfg heard r).returnRun } := by
  unfold policyStep
  cases cfg.presence
  · exact tolerantStep_eq heard r
  · exact strictStep_eq heard r

/-- A record that is not scheduled is not evaluated (R133). -/
theorem policyStep_unscheduled (h : r.presence = .self ∨ r.presence = .notScheduled) : policyStep cfg heard r = r := by
  unfold policyStep
  cases cfg.presence <;> rcases h with h | h <;> simp only [tolerantStep, strictStep, h]

/-- An evaluation neither reads nor changes the last heard cycle. -/
theorem policyStep_withLastHeard (cfg : Items) (heard : Bool) (r : Peer) (c : Option Cycle) :
    policyStep cfg heard { r with lastHeard := c } = { policyStep cfg heard r with lastHeard := c } := by
  have htolerant : tolerantStep heard { r with lastHeard := c } = { tolerantStep heard r with lastHeard := c } := by
    fun_cases tolerantStep heard r <;> simp only [tolerantStep, *, if_true, if_false]
  have hstrict : strictStep heard { r with lastHeard := c } = { strictStep heard r with lastHeard := c } := by
    fun_cases strictStep heard r <;> simp only [strictStep, *]
  unfold policyStep
  cases cfg.presence
  · exact htolerant
  · exact hstrict

theorem capturesPresence_eq (mode : CaptureMode) (before after : Presence) :
    capturesPresence mode before after = (decide (after ≠ before) && (mode == .any || after == .absent)) := by
  cases mode <;> cases before <;> cases after <;> rfl

/-- The presence and the runs of a record. -/
def Peer.moves (r : Peer) : Presence × Nat × Nat := (r.presence, r.silentRun, r.returnRun)

/-! ### The tables of the two policies (R137, R138) -/

/-- What an evaluation makes of the presence and the runs rests on them alone. -/
theorem policyStep_moves_congr {r' : Peer} (cfg : Items) (heard : Bool) (h : r'.moves = r.moves) :
    (policyStep cfg heard r').moves = (policyStep cfg heard r).moves := by
  obtain ⟨hp, hs, hr⟩ : r'.presence = r.presence ∧ r'.silentRun = r.silentRun ∧ r'.returnRun = r.returnRun := by
    simpa only [Peer.moves, Prod.mk.injEq] using h
  have htolerant : (tolerantStep heard r').moves = (tolerantStep heard r).moves := by
    fun_cases tolerantStep heard r <;> simp only [tolerantStep, Peer.moves, if_true, if_false, *]
  have hstrict : (strictStep heard r').moves = (strictStep heard r).moves := by
    fun_cases strictStep heard r <;> simp only [strictStep, Peer.moves, *]
  unfold policyStep
  cases cfg.presence
  · exact htolerant
  · exact hstrict

theorem tolerantStep_heard (hp : r.presence = .unseen ∨ r.presence = .present ∨ r.presence = .fading) (hh : heard = true) :
    (tolerantStep heard r).moves = (.present, 0, r.returnRun) := by
  rcases hp with hp | hp | hp <;> simp only [tolerantStep, hp, hh, Peer.moves]

theorem tolerantStep_unseen_silent (hp : r.presence = .unseen) (hh : heard = false) :
    (tolerantStep heard r).moves =
      (if r.silentRun + 1 = 2 then .absent else .unseen, r.silentRun + 1, r.returnRun) := by
  simp only [tolerantStep, hp, hh]
  split_ifs with h
  · rw [h]; rfl
  · simp only [Peer.moves]

theorem tolerantStep_present_silent (hp : r.presence = .present) (hh : heard = false) :
    (tolerantStep heard r).moves = (.fading, 1, r.returnRun) := by simp only [tolerantStep, hp, hh, Peer.moves]

theorem tolerantStep_fading_silent (hp : r.presence = .fading) (hh : heard = false) :
    (tolerantStep heard r).moves = (.absent, 2, r.returnRun) := by simp only [tolerantStep, hp, hh, Peer.moves]

theorem tolerantStep_absent_heard (hp : r.presence = .absent) (hr : r.returnRun = 0) (hh : heard = true) :
    (tolerantStep heard r).moves = (.absent, 0, 1) := by simp only [tolerantStep, hp, hr, hh, if_true, Peer.moves]

theorem tolerantStep_absent_silent (hp : r.presence = .absent) (hr : r.returnRun = 0) (hh : heard = false) :
    (tolerantStep heard r).moves = (.absent, min 2 (r.silentRun + 1), 0) := by
  simp only [tolerantStep, hp, hr, hh, if_true, Peer.moves]

theorem tolerantStep_returning_heard (hp : r.presence = .absent) (hr : r.returnRun = 1) (hh : heard = true) :
    (tolerantStep heard r).moves = (.present, 0, 0) := by
  simp only [tolerantStep, hp, hr, hh, Nat.one_ne_zero, if_false, Peer.moves]

theorem tolerantStep_returning_silent (hp : r.presence = .absent) (hr : r.returnRun = 1) (hh : heard = false) :
    (tolerantStep heard r).moves = (.absent, 1, 0) := by
  simp only [tolerantStep, hp, hr, hh, Nat.one_ne_zero, if_false, Peer.moves]

theorem strictStep_heard (hself : r.presence ≠ .self) (hno : r.presence ≠ .notScheduled) (hh : heard = true) :
    (strictStep heard r).moves = (.present, 0, r.returnRun) := by
  cases hp : r.presence with
  | self => exact absurd hp hself
  | notScheduled => exact absurd hp hno
  | unseen | present | fading | absent => simp only [strictStep, hp, hh, Peer.moves]

theorem strictStep_silent (hp : r.presence = .unseen ∨ r.presence = .present) (hh : heard = false) :
    (strictStep heard r).moves = (.absent, 1, r.returnRun) := by
  rcases hp with hp | hp <;> simp only [strictStep, hp, hh, Peer.moves]

theorem strictStep_fading_silent (hp : r.presence = .fading) (hh : heard = false) :
    (strictStep heard r).moves = (.absent, 2, r.returnRun) := by simp only [strictStep, hp, hh, Peer.moves]

theorem strictStep_absent_silent (hp : r.presence = .absent) (hh : heard = false) :
    (strictStep heard r).moves = (.absent, min 2 (r.silentRun + 1), r.returnRun) := by
  simp only [strictStep, hp, hh, Peer.moves]

/-! ### One boundary -/

/-- One record over a boundary, from its heard mark (R136). -/
def boundaryPeer (cfg : Items) (whole heard : Bool) (r : Peer) : Peer := if whole then evaluate cfg heard r else r

theorem evaluateAll_peers (cfg : Items) (whole : Bool) (x : Pmn) (a : Addr) :
    (evaluateAll cfg whole x).peers[a] = boundaryPeer cfg whole x.marks[a] x.peers[a] := by
  cases whole
  · rfl
  · simp [evaluateAll, boundaryPeer]

theorem boundaryPeer_moves_whole (cfg : Items) (heard : Bool) (r : Peer) :
    (boundaryPeer cfg true heard r).moves = (policyStep cfg heard r).moves := rfl

theorem boundaryPeer_moves_stand {whole : Bool} (h : whole = false ∨ r.presence = .self ∨ r.presence = .notScheduled) :
    (boundaryPeer cfg whole heard r).moves = r.moves := by
  cases whole with
  | false => rfl
  | true => rw [boundaryPeer_moves_whole, policyStep_unscheduled (h.resolve_left nofun)]

/-- A boundary leaves alone every field but the presence, the runs and the presence-changed flag. -/
theorem boundaryPeer_eq (cfg : Items) (whole heard : Bool) (r : Peer) : boundaryPeer cfg whole heard r =
    { r with
      presence := (boundaryPeer cfg whole heard r).presence
      silentRun := (boundaryPeer cfg whole heard r).silentRun
      returnRun := (boundaryPeer cfg whole heard r).returnRun
      presenceChanged := (boundaryPeer cfg whole heard r).presenceChanged } := by
  cases whole with
  | false => rfl
  | true =>
    show evaluate cfg heard r = { r with presence := _, silentRun := _, returnRun := _, presenceChanged := _ }
    rw [evaluate_eq_policyStep]
    conv_lhs => rw [policyStep_eq]
    rfl

/-- The presence-changed flag over a boundary (R142). -/
theorem boundaryPeer_presenceChanged (cfg : Items) (whole heard : Bool) (r : Peer) :
    (boundaryPeer cfg whole heard r).presenceChanged = (r.presenceChanged ||
      (decide ((boundaryPeer cfg whole heard r).presence ≠ r.presence) &&
        (cfg.presenceCapture == .any || (boundaryPeer cfg whole heard r).presence == .absent))) := by
  cases whole with
  | false => simp [boundaryPeer]
  | true => exact congrArg (r.presenceChanged || ·) (capturesPresence_eq ..)

theorem boundaryPeer_withLastHeard (cfg : Items) (whole heard : Bool) (r : Peer) (c : Option Cycle) :
    boundaryPeer cfg whole heard { r with lastHeard := c } = { boundaryPeer cfg whole heard r with lastHeard := c } := by
  cases whole with
  | false => rfl
  | true =>
    show evaluate cfg heard { r with lastHeard := c } = { evaluate cfg heard r with lastHeard := c }
    rw [evaluate_eq_policyStep, policyStep_withLastHeard, evaluate_eq_policyStep]

end Sys2Proof.Machine
end

section
/-! SUPPORT. The Peer Monitor over a cycle boundary, in every order of the blocks: the notices and the heard credit of the frame that
ends the cycle, and the evaluation of every record (R133 to R142; log 6). -/

namespace Sys2Proof.Machine

/-! ### The Peer Monitor after a phase end that ends a cycle -/

theorem credit_marks (b : Addr) (c : Cycle) (x : Pmn) (a : Addr) :
    (credit b c x).marks[a] = (x.marks[a] || decide (b = a)) := by
  by_cases ha : b = a
  · subst ha
    simp [credit, updatePeer]
  · have hne : b.val ≠ a.val := fun h => ha (Fin.ext h)
    simp [credit, updatePeer, Vector.getElem_set_ne _ _ hne, ha]

/-- The heard credit sets the mark of the sender, and no other one (R134). -/
theorem creditedPmn_marks_eq (k : Work) (x : Pmn) (a : Addr) :
    (creditedPmn k x).marks[a] = (x.marks[a] || decide (k.heard.map Prod.fst = some a)) := by
  unfold creditedPmn
  cases k.heard with
  | none => simp
  | some p => simpa using credit_marks p.1 p.2 x a

/-- The heard credit taken after the evaluation leaves the record as the credit taken first does, but for the mark that the
evaluation reads (R135). -/
theorem creditedPmn_evaluateAll (cfg : Items) (whole : Bool) (k : Work) (x : Pmn) (a : Addr) :
    (creditedPmn k (evaluateAll cfg whole x)).peers[a] =
      boundaryPeer cfg whole x.marks[a] (creditedPmn k x).peers[a] := by
  unfold creditedPmn
  cases k.heard with
  | none => exact evaluateAll_peers cfg whole x a
  | some p =>
    have he := evaluateAll_peers cfg whole x a
    simp only [Fin.getElem_fin] at he ⊢
    simp only [credit, updatePeer_peers, he]
    split_ifs
    · exact (boundaryPeer_withLastHeard ..).symm
    · rfl

section

variable {o : Config.FrameEndOrder} {k : Work} {u : State}

/-- The credit taken first, as the evaluation finds it. -/
theorem creditIf_counting_pmn (o : Config.FrameEndOrder) (k : Work) (u : State) :
    (creditIf o.creditFirst k (counting o k u)).pmn = (creditIf o.creditFirst k u).pmn := by
  rw [creditIf_pmn, creditIf_pmn, counting_pmn]

theorem creditIf_counting_cfg (o : Config.FrameEndOrder) (k : Work) (u : State) :
    (creditIf o.creditFirst k (counting o k u)).cfg = u.cfg := by
  rw [(reported_creditIf ..).cfg]
  simp [counting]

theorem atStart_cfg (o : Config.FrameEndOrder) (k : Work) (u : State) : (atStart o k u).cfg = u.cfg := by
  rw [atStart, runTasks_cfg, creditIf_counting_cfg]

/-- At the phase start the evaluation has come, unless the selection is taken first (R91). -/
theorem atStart_pmn (hends : endsCycle u = true) (taken : ∀ g, k.taken = some g → ∃ f s0 p c, g = takenFrame f s0 p c) :
    (atStart o k u).pmn =
      if o.selectFirst then (creditIf o.creditFirst k u).pmn
      else evaluateAll u.cfg u.ctr.whole (creditIf o.creditFirst k u).pmn := by
  rw [atStart, hends, ← creditIf_counting_pmn]
  cases hs : o.selectFirst with
  | true => exact runTasks_pmn (by rw [presence_mem_tasksBefore, hs]; exact nofun) _
  | false =>
    rw [runTasks_presence (tasksBefore_nodup o) ((presence_mem_tasksBefore o).mpr hs) _ taken, creditIf_counting_cfg]
    rfl

/-- In every order of the blocks a boundary credits the frame and evaluates the records, the one or the other first (R135,
R136). -/
theorem phaseEndWith_pmn (haligned : u.ctr.aligned = true) (hends : endsCycle u = true)
    (taken : ∀ g, k.taken = some g → ∃ f s0 p c, g = takenFrame f s0 p c) :
    (phaseEndWith o k u).pmn =
      if o.creditFirst then evaluateAll u.cfg u.ctr.whole (creditedPmn k u.pmn)
      else creditedPmn k (evaluateAll u.cfg u.ctr.whole u.pmn) := by
  have hstart := atStart_pmn (o := o) hends taken
  rw [← phaseStart_pmn] at hstart
  have hevaluated : (if endsCycle u && o.selectFirst then
      pmnBoundary u.ctr.whole (nextPhase u) (nextCycle u) (phaseStart (atStart o k u))
      else phaseStart (atStart o k u)).pmn = evaluateAll u.cfg u.ctr.whole (creditIf o.creditFirst k u).pmn := by
    rw [hends, Bool.true_and]
    cases hs : o.selectFirst with
    | true => rw [if_pos rfl, pmnBoundary_pmn, phaseStart_cfg, atStart_cfg, hstart, hs, if_pos rfl]
    | false => rw [if_neg nofun, hstart, hs, if_neg nofun]
  rw [phaseEndWith_eq o k haligned, afterStart, creditIf_pmn, hevaluated, creditIf_pmn]
  cases o.creditFirst <;> rfl

end

/-! ### The notices of the frame that ends the cycle -/

/-- A record as the notices of the frame that this command ends leave it, from the record of this state (R134, R140 to R142). -/
def NotedRecord (i : Instr) (s : State) (a : Addr) (r : Peer) : Prop :=
  ((∀ f outcome, ¬ (i = .frameEnd ∧ EndsWith f outcome s)) → r = s.pmn.peers[a]) ∧
    ∀ f outcome, i = .frameEnd → EndsWith f outcome s → r = notedPeer f outcome s.cfg.qualityCapture a s.pmn.peers[a]

theorem EndsWith.unique {s : State} {f g : Gather} {x y : FrameOutcome} (h : EndsWith f x s) (h' : EndsWith g y s) :
    g = f ∧ y = x := by
  obtain rfl : g = f := Option.some.inj (h'.frame.symm.trans h.frame)
  exact ⟨rfl, h'.outcome.symm.trans h.outcome⟩

theorem notedRecord_of_plain {i : Instr} {s : State} (h : ∀ f outcome, ¬ (i = .frameEnd ∧ EndsWith f outcome s)) (a : Addr) :
    NotedRecord i s a s.pmn.peers[a] :=
  ⟨fun _ => rfl, fun f outcome hi hf => absurd ⟨hi, hf⟩ (h f outcome)⟩

theorem notedRecord_of_ends {s : State} {f : Gather} {outcome : FrameOutcome} (h : EndsWith f outcome s) (a : Addr) :
    NotedRecord .frameEnd s a (notedPeer f outcome s.cfg.qualityCapture a s.pmn.peers[a]) := by
  refine ⟨fun hno => absurd ⟨rfl, h⟩ (hno f outcome), fun g y _ hg => ?_⟩
  obtain ⟨rfl, rfl⟩ := h.unique hg
  rfl

/-- No notice touches the presence, the runs, the presence-changed flag or the owned phase count. -/
theorem notedPeer_keeps (f : Gather) (outcome : FrameOutcome) (capture : CaptureMode) (a : Addr) (r : Peer) :
    (notedPeer f outcome capture a r).moves = r.moves ∧
      (notedPeer f outcome capture a r).presenceChanged = r.presenceChanged ∧
      (notedPeer f outcome capture a r).owned = r.owned := by
  by_cases ha : a = senderOf f.bytes
  · cases outcome with
    | clean => cases he : patternErrors f <;> simp [notedPeer, ha, he, Peer.moves]
    | framing | format | crc | digest | foreign => simp [notedPeer, ha, Peer.moves]
  · simp [notedPeer, ha]

theorem NotedRecord.keeps {i : Instr} {s : State} {a : Addr} {r : Peer} (h : NotedRecord i s a r) :
    r.moves = s.pmn.peers[a].moves ∧ r.presenceChanged = s.pmn.peers[a].presenceChanged ∧
      r.owned = s.pmn.peers[a].owned := by
  by_cases hends : ∃ f outcome, i = .frameEnd ∧ EndsWith f outcome s
  · obtain ⟨f, outcome, hi, hf⟩ := hends
    rw [h.2 f outcome hi hf]
    exact notedPeer_keeps ..
  · rw [h.1 fun f outcome hf => hends ⟨f, outcome, hf⟩]
    exact ⟨rfl, rfl, rfl⟩

/-- The command runs as the end of phase `n` from `u`, as the Peer Monitor sees it: the notices of the frame have come, and the
work `k` holds its heard credit. -/
structure NotedEnd (o : Config.FrameEndOrder) (k : Work) (s : State) (i : Instr) (n : Phase) (w : Ending) (u : State) :
    Prop where
  exec : exec i s = .next (phaseEndWith o k u)
  aligned : u.ctr.aligned = true
  ends : u.ctr.p.val + 1 = u.ctr.table.length ↔ n.val + 1 = s.ctr.table.length
  whole : u.ctr.whole = w.whole
  cfg : u.cfg = s.cfg
  marks : u.pmn.marks = s.pmn.marks
  credits : k.heard.map Prod.fst = w.heard
  noted : ∀ a, NotedRecord i s a (creditedPmn k u.pmn).peers[a]
  taken : ∀ g, k.taken = some g → ∃ f s0 p c, g = takenFrame f s0 p c

/-- A phase end without a clean frame. -/
theorem notedEnd_of_phaseEnd {k : Work} {s v : State} {i : Instr} {n : Phase} {w : Ending} (hexec : exec i s = .next (phaseEnd k v))
    (haligned : v.ctr.aligned = true) (hp : v.ctr.p = n) (htable : v.ctr.table = s.ctr.table) (hwhole : v.ctr.whole = w.whole)
    (hcfg : v.cfg = s.cfg) (hmarks : v.pmn.marks = s.pmn.marks) (hheard : w.heard = none) (hk : k.heard = none ∧ k.taken = none)
    (hnoted : ∀ a : Addr, NotedRecord i s a v.pmn.peers[a]) : ∃ o k u, NotedEnd o k s i n w u := by
  have hcredited : creditedPmn k v.pmn = v.pmn := by rw [creditedPmn, hk.1]
  refine ⟨orderOf k v, k, v.withFreeCount (freeAfter k v), ?_⟩
  exact
    { exec := by rw [hexec, phaseEnd_eq]
      aligned := haligned
      ends := by
        show v.ctr.p.val + 1 = v.ctr.table.length ↔ _
        rw [hp, htable]
      whole := hwhole
      cfg := hcfg
      marks := hmarks
      credits := by rw [hk.1, hheard]; rfl
      noted := fun a => by
        show NotedRecord i s a (creditedPmn k v.pmn).peers[a]
        rw [hcredited]
        exact hnoted a
      taken := fun g hg => by rw [hk.2] at hg; cases hg }

/-- A phase end with a clean frame. -/
theorem Advances.notedEnd {o : Config.FrameEndOrder} {k : Work} {s u : State} {n : Phase} {w : Ending} {f : Gather}
    (h : Advances o k s .frameEnd n w u) (ends : EndsWith f .clean s) (heard : w.heard = some (senderOf f.bytes))
    (cycle : w.cycle = cycleOf f.bytes) : NotedEnd o k s .frameEnd n w u := by
  have hheard : k.heard = some (senderOf f.bytes, cycleOf f.bytes) := by rw [h.heard, heard, cycle]; rfl
  exact
    { exec := h.exec_eq
      aligned := by rw [h.ctr]
      ends := by rw [h.ctr]
      whole := by rw [h.ctr]
      cfg := h.cfg
      marks := h.marks
      credits := by rw [hheard, heard]; rfl
      noted := fun a => by
        have hcredited : creditedPmn k u.pmn = credit (senderOf f.bytes) (cycleOf f.bytes) u.pmn := by rw [creditedPmn, hheard]
        rw [hcredited, h.noted f rfl ends, (credit_notedPmn f s.cfg s.pmn a).2]
        exact notedRecord_of_ends ends a
      taken := fun g hg => by
        obtain ⟨p, c, htook, -⟩ := h.took
        obtain ⟨f', -, rfl⟩ := Option.map_eq_some_iff.mp (htook.symm.trans hg)
        exact ⟨f', s, p, c, rfl⟩ }

/-- A phase end without a frame of another station. -/
theorem notedEnd_plain {s v : State} {i : Instr} {n : Phase} {w : Ending}
    (noFrame : ∀ f outcome, ¬ (i = .frameEnd ∧ EndsWith f outcome s)) (hexec : exec i s = .next (phaseEnd .nothing v))
    (haligned : v.ctr.aligned = true) (hp : v.ctr.p = n) (htable : v.ctr.table = s.ctr.table) (hwhole : v.ctr.whole = w.whole)
    (hcfg : v.cfg = s.cfg) (hpmn : v.pmn = s.pmn) (hheard : w.heard = none) : ∃ o k u, NotedEnd o k s i n w u :=
  notedEnd_of_phaseEnd hexec haligned hp htable hwhole hcfg (by rw [hpmn]) hheard ⟨rfl, rfl⟩ fun a => by
    rw [hpmn]
    exact notedRecord_of_plain noFrame a

/-- The frame end of a frame with a fault, out of COLD: a phase end, after the notices of the frame (R21, R141). -/
theorem exec_frameEnd_fault {s : State} {f : Gather} {outcome : FrameOutcome} {kind : FaultKind} (ends : EndsWith f outcome s)
    (isFault : outcome.kind = some kind) (station : s.stc.station ≠ .cold) :
    exec .frameEnd s = .next (phaseEnd (faultWork f outcome kind s) (noteFault f.bytes outcome (dropFrame s))) := by
  have hstation : (phaseEnd (faultWork f outcome kind s) (noteFault f.bytes outcome (dropFrame s))).stc.station ≠ .cold := by
    rw [phaseEnd_eq]
    refine phaseEndWith_notCold _ _ ?_
    rw [noteFault_eq]
    exact station
  rw [exec_frameEnd_free ends.free, endFrame_fault ends isFault, faultFrameEnd]
  simp only [if_neg hstation]

theorem PhaseEnd.noted {s : State} {i : Instr} {n : Phase} {w : Ending} (h : PhaseEnd s i n w) :
    ∃ o k u, NotedEnd o k s i n w u := by
  have clean : ∀ {n w f}, (∃ o k u, Advances o k s .frameEnd n w u) → EndsWith f .clean s →
      w.heard = some (senderOf f.bytes) → w.cycle = cycleOf f.bytes → ∃ o k u, NotedEnd o k s .frameEnd n w u :=
    fun ⟨o, k, u, ha⟩ ends heard cycle => ⟨o, k, u, ha.notedEnd ends heard cycle⟩
  cases h with
  | skip ct aligned timer driver receiver =>
    exact notedEnd_plain (fun _ _ => nofun) (exec_skipExpiry_free aligned timer driver receiver) aligned rfl rfl rfl rfl rfl rfl
  | sample aligned timer driver receiver noFrame =>
    exact notedEnd_plain (fun _ _ => nofun) (exec_falseStart_skip timer driver receiver noFrame) aligned rfl rfl rfl rfl rfl rfl
  | own f aligned frame begun isOwn free settled =>
    have hexec : exec .frameEnd s = .next (phaseEnd .nothing (dropFrame s)) := by
      rw [exec_frameEnd_free free, endFrame_own frame begun isOwn, ownFrameEnd_aligned (s := dropFrame s) settled aligned]
    exact notedEnd_plain (fun _ _ hf => not_clean_of_own frame isOwn hf.2) hexec aligned rfl rfl rfl rfl rfl rfl
  | cold f p frame begun isOwn free pending station owns lowest =>
    have hlow : lowestOwned (dropFrame s) = n := lowestOwned_eq (s := dropFrame s) owns lowest
    have hexec : exec .frameEnd s = .next (phaseEnd .nothing (enterActive ((dropFrame s).withCtr (alignTo n 0 s.ctr)))) := by
      rw [exec_frameEnd_free free, endFrame_own frame begun isOwn, ownFrameEnd_cold (s := dropFrame s) pending, hlow]
      rfl
    exact notedEnd_plain (fun _ _ hf => not_clean_of_own frame isOwn hf.2) hexec rfl rfl rfl rfl rfl rfl rfl
  | fault f outcome kind ends isFault aligned station =>
    refine notedEnd_of_phaseEnd (exec_frameEnd_fault ends isFault station) (by simpa using aligned) (by simp) (by simp) (by simp)
      (by simp) (by simp) rfl ⟨rfl, rfl⟩ fun a => ?_
    rw [noteFault_peers isFault f s.cfg.qualityCapture a (dropFrame s)]
    exact notedRecord_of_ends ends a
  | inStep f ends aligned phase cycle => exact clean (advances_inStep ends aligned phase cycle) ends rfl cycle.symm
  | realigned f ends aligned differs => exact clean (advances_realigned ends aligned differs) ends rfl rfl
  | acquired f ends unaligned station => exact clean (advances_acquired ends unaligned station) ends rfl rfl

/-- Every record after a boundary: noted, and evaluated with the heard credit of the frame counted before or after (R135, R136). -/
theorem BoundaryEnd.noted_evaluated {s : State} {i : Instr} {w : Ending} (h : BoundaryEnd s i w) (a : Addr) :
    ∃ t heard r, exec i s = .next t ∧ (heard = s.pmn.marks[a] ∨ (w.heard = some a ∧ heard = true)) ∧ NotedRecord i s a r ∧
      t.pmn.peers[a] = boundaryPeer s.cfg w.whole heard r := by
  obtain ⟨n, hphase, hn⟩ := h
  obtain ⟨o, k, u, he⟩ := hphase.noted
  have hends : endsCycle u = true := endsCycle_eq_true_iff.mpr ⟨he.aligned, he.ends.mpr hn⟩
  have hpmn := phaseEndWith_pmn (o := o) he.aligned hends he.taken
  rw [he.cfg, he.whole] at hpmn
  cases hc : o.creditFirst with
  | true =>
    rw [hc, if_pos rfl] at hpmn
    refine ⟨_, (creditedPmn k u.pmn).marks[a], _, he.exec, ?_, he.noted a, by rw [hpmn, evaluateAll_peers]⟩
    rw [creditedPmn_marks_eq, he.credits, he.marks]
    by_cases ha : w.heard = some a
    · exact .inr ⟨ha, by simp [ha]⟩
    · exact .inl (by simp [ha])
  | false =>
    rw [hc, if_neg nofun] at hpmn
    exact ⟨_, u.pmn.marks[a], _, he.exec, .inl (by rw [he.marks]), he.noted a, by rw [hpmn, creditedPmn_evaluateAll]⟩

end Sys2Proof.Machine

namespace Sys2Proof.Proofs

open Sys2Proof.Machine

/-- Settles O41: in every order of the blocks a record is noted, and evaluated by the table of its policy. -/
theorem presenceEvaluation : Obligations.PresenceEvaluation := by
  intro i w s a hend
  obtain ⟨t, heard, r', hexec, hheard, hnoted, hx⟩ := hend.noted_evaluated a
  obtain ⟨hmoves, hchanged, howned⟩ := hnoted.keeps
  obtain ⟨hplain, hframe⟩ := hnoted
  refine ⟨t, heard, hexec, hheard, ?_⟩
  intro r x
  have hrest : x = { r' with presence := x.presence, silentRun := x.silentRun, returnRun := x.returnRun,
                             presenceChanged := x.presenceChanged } := by
    have h := boundaryPeer_eq s.cfg w.whole heard r'
    rwa [← hx] at h
  have hpresence : r'.presence = r.presence := congrArg Prod.fst hmoves
  have hpolicy : w.whole = true → x.moves = (policyStep s.cfg heard r).moves := fun hw => by
    show t.pmn.peers[a].moves = _
    rw [hx, hw, boundaryPeer_moves_whole]
    exact policyStep_moves_congr s.cfg heard hmoves
  refine ⟨⟨?_, ?_⟩, fun h => ?_, fun h => ?_, fun f outcome hi hf => ?_, fun hw hp => ?_, fun hw hp => ?_⟩
  · rw [hrest]
    exact howned
  · have h := boundaryPeer_presenceChanged s.cfg w.whole heard r'
    rwa [← hx, hchanged, hpresence] at h
  · show t.pmn.peers[a].moves = _
    rw [hx, boundaryPeer_moves_stand (by rwa [hpresence]), hmoves]
    rfl
  · have hr : r' = r := hplain h
    rwa [hr] at hrest
  · have hr : r' = notedPeer f outcome s.cfg.qualityCapture a r := hframe f outcome hi hf
    rwa [hr] at hrest
  · have hstep : x.moves = (tolerantStep heard r).moves := by rw [hpolicy hw, policyStep_tolerant hp]
    exact ⟨fun hr hh => hstep.trans (tolerantStep_heard (.inl hr) hh),
      fun hr hh => hstep.trans (tolerantStep_unseen_silent hr hh),
      fun hr hh => hstep.trans (tolerantStep_heard (.inr (.inl hr)) hh),
      fun hr hh => hstep.trans (tolerantStep_present_silent hr hh),
      fun hr hh => hstep.trans (tolerantStep_heard (.inr (.inr hr)) hh),
      fun hr hh => hstep.trans (tolerantStep_fading_silent hr hh),
      fun hr hn hh => hstep.trans (tolerantStep_absent_heard hr hn hh),
      fun hr hn hh => hstep.trans (tolerantStep_absent_silent hr hn hh),
      fun hr hn hh => hstep.trans (tolerantStep_returning_heard hr hn hh),
      fun hr hn hh => hstep.trans (tolerantStep_returning_silent hr hn hh)⟩
  · have hstep : x.moves = (strictStep heard r).moves := by rw [hpolicy hw, policyStep_strict hp]
    exact ⟨fun hself hno hh => hstep.trans (strictStep_heard hself hno hh),
      fun hr hh => hstep.trans (strictStep_silent hr hh),
      fun hr hh => hstep.trans (strictStep_fading_silent hr hh),
      fun hr hh => hstep.trans (strictStep_absent_silent hr hh)⟩

end Sys2Proof.Proofs
end

section
/-! SUPPORT. The transactions of the Fault Unit and the saturating line error counter (R154, R155, R158, R160, R162). -/

namespace Sys2Proof.Machine

variable {s : State}

/-! ### Reply bytes (10, FAULTS and COUNTER; R181) -/

theorem halfBytes_eq (h : Half) : halfBytes h = [BitVec.ofNat 8 (h.toNat / 256), BitVec.ofNat 8 h.toNat] := by
  rw [← halfBytes_ofNat, BitVec.ofNat_toNat, BitVec.setWidth_eq]

theorem packBits_three (x y z : Bool) :
    packBits [x, y, z] = BitVec.ofNat 8 (x.toNat + 2 * y.toNat + 4 * z.toNat) := by
  cases x <;> cases y <;> cases z <;> rfl

/-- The ten status flags in two bytes. -/
theorem halfBytes_flags (flags : KindSet) :
    halfBytes (flags.setWidth 16) = [BitVec.ofNat 8 (flags.toNat / 256), BitVec.ofNat 8 flags.toNat] := by
  rw [halfBytes_eq, BitVec.toNat_setWidth_of_le (by decide)]

theorem faultsReply_none {f : Flt} (h : f.first = none) : faultsReply f =
    [BitVec.ofNat 8 (f.flags.toNat / 256), BitVec.ofNat 8 f.flags.toNat] ++ List.replicate 15 0 := by
  simp only [faultsReply, h, halfBytes_flags]

theorem faultsReply_some {f : Flt} {r : FirstFault} (h : f.first = some r) : faultsReply f =
    [BitVec.ofNat 8 (f.flags.toNat / 256), BitVec.ofNat 8 f.flags.toNat] ++
      ([BitVec.ofNat 8 (1 + 2 * r.sender.isSome.toNat + 4 * r.cls.isSome.toNat), BitVec.ofNat 8 (r.kind.bit + 1),
        BitVec.ofNat 8 ((r.sender.map Fin.val).getD 0), BitVec.ofNat 8 ((r.cls.map Fin.val).getD 0),
        BitVec.ofNat 8 r.phase.val, r.cycle, BitVec.ofNat 8 r.bytes.length] ++
        (r.bytes ++ List.replicate (8 - r.bytes.length) 0)) := by
  simp only [faultsReply, h, halfBytes_flags, packBits_three]
  rfl

theorem counterReply_eq (f : Flt) : counterReply f =
    [BitVec.ofNat 8 (f.snapshot.toNat / 256), BitVec.ofNat 8 f.snapshot.toNat,
     BitVec.ofNat 8 (f.snapOverflow.toNat + 2 * f.reportReady.toNat + 4 * f.liveOverflow.toNat),
     BitVec.ofNat 8 (f.lineErrors.toNat / 256), BitVec.ofNat 8 f.lineErrors.toNat] := by
  simp only [counterReply, halfBytes_eq, packBits_three]
  rfl

/-! ### FAULT CLEAR (R155) -/

/-- Two argument bytes read back as the field that was sent in them (R181). -/
theorem argHalf_halfBytes (h : Half) : argHalf (halfBytes h) 0 = h := halfOf_bytes h

/-- The bits of a two-byte set above the ten kinds name none (R182). -/
theorem hasKind_kindSetOf (h : Half) (k : FaultKind) : hasKind (kindSetOf h) k = h.getLsbD k.bit := by
  simp [hasKind, kindSetOf, k.bit_lt]

theorem clearFaults_hasKind (gone : KindSet) (f : Flt) (k : FaultKind) :
    hasKind (clearFaults gone f).flags k = (hasKind f.flags k && !hasKind gone k) := hasKind_removeKinds _ _ _

theorem clearFaults_first_some {f : Flt} {r : FirstFault} (gone : KindSet) (h : f.first = some r) :
    (clearFaults gone f).first = if hasKind gone r.kind then none else some r := by
  simp only [clearFaults, h, Option.filter_some]
  cases hasKind gone r.kind <;> rfl

theorem clearFaults_first_none {f : Flt} (gone : KindSet) (h : f.first = none) : (clearFaults gone f).first = none := by
  simp only [clearFaults, h, Option.filter_none]

/-! ### The line error counter (R158) -/

section

variable {n : Nat} {f : Flt}

theorem countErrors_below (h : f.lineErrors.toNat + n ≤ 65535) :
    countErrors n f = { f with lineErrors := BitVec.ofNat 16 (f.lineErrors.toNat + n) } := if_neg (by omega)

theorem countErrors_past (h : 65535 < f.lineErrors.toNat + n) :
    countErrors n f = { f with lineErrors := 0xFFFF, liveOverflow := true } := if_pos h

/-- A raise up to 65535 is not cut to the counter's width. -/
theorem countErrors_lineErrors_below (h : f.lineErrors.toNat + n ≤ 65535) :
    (countErrors n f).lineErrors.toNat = f.lineErrors.toNat + n := by
  rw [countErrors_below h]
  exact Nat.mod_eq_of_lt (by omega)

/-- A raise touches the counter and its live overflow flag alone. -/
theorem countErrors_rest (n : Nat) (f : Flt) : countErrors n f =
    { f with lineErrors := (countErrors n f).lineErrors, liveOverflow := (countErrors n f).liveOverflow } := by
  unfold countErrors
  split <;> rfl

end

theorem reportPending_of_liveOverflow (h : s.flt.liveOverflow = true) : causePending s .report = true := by
  simp [causePending, h]

/-! ### Transactions that leave everything, or everything but the Fault Unit -/

/-- A transaction that was only answered leaves every cause as it stands. -/
theorem OnlyAnswered.causePending {r : Result} {reply : List Byte} {s t : State} (h : OnlyAnswered r reply s t) (k : Cause) :
    causePending t k = causePending s k := by
  obtain ⟨-, htxs, -, hsame, -⟩ := h
  have hcfg : t.cfg = s.cfg := hsame .cfg (by decide)
  have hstc : t.stc = s.stc := hsame .stc (by decide)
  have hrxu : t.rxu = s.rxu := hsame .rxu (by decide)
  have hpmn : t.pmn = s.pmn := hsame .pmn (by decide)
  have hflt : t.flt = s.flt := hsame .flt (by decide)
  have hcompletions : t.txs.completions = s.txs.completions := by rw [htxs]
  cases k <;> simp only [Machine.causePending, deliveryCause, peerCause, hcfg, hstc, hrxu, hpmn, hflt, hcompletions]

section

variable {i : Instr} {c : Command} {args payload reply : List Byte} (h : transactionOf i = some (c, args, payload))
  (hw : Takeable i s)
include h hw

/-- A transaction that its owning block grants without an effect is answered, and nothing else happens. -/
theorem exec_granted_only (hd : decideCommand c (receiveAll c args payload s) = grant reply (receiveAll c args payload s)) :
    ∃ t, exec i s = .next t ∧ OnlyAnswered .ok reply s t :=
  ⟨_, exec_granted h hw hd, ⟨rfl, rfl, rfl⟩, rfl, ⟨rfl, rfl, rfl⟩, (sameOutside_receiveAll ..).answer⟩

/-- A transaction that the Fault Unit grants changes the Fault Unit alone. -/
theorem exec_granted_flt {x : Flt}
    (hd : decideCommand c (receiveAll c args payload s) = grant reply ((receiveAll c args payload s).withFlt x)) :
    ∃ t, exec i s = .next t ∧ Answered .ok reply t ∧ t.flt = x ∧ TransmitKept s t ∧ LinesKept s t ∧
      SameOutside [.lpt, .txs, .flt] s t := by
  refine ⟨_, exec_granted h hw hd, ⟨rfl, rfl, rfl⟩, rfl, rfl, ⟨rfl, rfl, rfl⟩,
    sameOutside_answer ⟨fun x hx => ?_, rfl⟩ (by decide) (by decide)⟩
  cases x with
  | lpt | txs | flt => simp at hx
  | lif | fru | ctr | stc | rxu | pmn | cfg | rstLow | freeCount => rfl

end

/-! ### SNAPSHOT (R160) -/

theorem decideSnapshot_onDemand (h : s.cfg.reportMode = .onDemand) :
    decideSnapshot s = grant [] (s.withFlt (transfer s.flt)) := by
  simp only [decideSnapshot, h]

theorem decideSnapshot_periodic (h : s.cfg.reportMode = .periodic) : decideSnapshot s = refuse .rejected s := by
  simp only [decideSnapshot, h]

end Sys2Proof.Machine

namespace Sys2Proof.Proofs

open Sys2Proof.Machine

/-- Settles O24: the decision of FAULTS is its reply alone, laid out by whether the record is valid. -/
theorem faults : Obligations.Faults := by
  intro s hw
  have hi : transactionOf .faults = some (.faults, [], []) := rfl
  obtain ⟨t, hexec, honly⟩ := exec_granted_only hi hw rfl
  refine ⟨takenByItsCode hi rfl rfl, t, hexec, ?_, honly.causePending⟩
  cases hfirst : s.flt.first with
  | none => exact faultsReply_none hfirst ▸ honly
  | some r => exact faultsReply_some hfirst ▸ honly

/-- Settles O25: the ten low bits of the argument are the set that is cleared, for the flags and for the record. -/
theorem faultClear : Obligations.FaultClear := by
  intro kinds s hw
  obtain ⟨t, hexec, hanswered, hflt, hkept⟩ :=
    exec_granted_flt (i := .faultClear kinds) (x := clearFaults (kindSetOf (argHalf (halfBytes kinds) 0)) s.flt) rfl hw rfl
  rw [argHalf_halfBytes] at hflt
  refine ⟨t, hexec, hanswered, fun k => ?_, fun r hr => ?_, fun hr => ?_, ?_, hkept⟩
  · rw [hflt, clearFaults_hasKind, hasKind_kindSetOf]
  · rw [hflt, clearFaults_first_some _ hr, hasKind_kindSetOf]
  · rw [hflt, clearFaults_first_none _ hr]
  · rw [hflt]
    rfl

/-- Settles O26: the reply is read before the two flags are cleared. -/
theorem counter : Obligations.Counter := by
  intro s hw
  have hi : transactionOf .counter = some (.counter, [], []) := rfl
  refine ⟨takenByItsCode hi rfl rfl, ?_⟩
  rw [← counterReply_eq]
  exact exec_granted_flt hi hw rfl

/-- Settles O27: the decision by the report mode. -/
theorem snapshot : Obligations.Snapshot := by
  intro s hw
  have hi : transactionOf .snapshot = some (.snapshot, [], []) := rfl
  refine ⟨takenByItsCode hi rfl rfl, fun hmode => ?_, fun hmode => exec_refused hi hw (decideSnapshot_periodic hmode)⟩
  obtain ⟨t, hexec, hanswered, hflt, hkept⟩ := exec_granted_flt hi hw (decideSnapshot_onDemand hmode)
  exact ⟨t, hexec, hanswered, hflt, hkept⟩

/-- Settles O50: a raise on either side of the limit; the rest is COUNTER (O26) and the cause REPORT. -/
theorem counterSaturates : Obligations.CounterSaturates := by
  refine ⟨fun n f => ⟨fun h => ⟨countErrors_lineErrors_below h, ?_⟩, fun h => ?_, countErrors_rest n f, rfl⟩,
    fun s => reportPending_of_liveOverflow, fun s hw => ?_⟩
  · rw [countErrors_below h]
  · rw [countErrors_past h]
    exact ⟨rfl, rfl⟩
  · obtain ⟨-, t, hexec, -, hflt, -⟩ := counter s hw
    exact ⟨t, hexec, by rw [hflt], by rw [hflt]⟩

end Sys2Proof.Proofs
end

section
/-! SUPPORT. The two request lines over every shared operation: what leaves them alone, and what drives them again (R126, R172, R178,
R179). -/

namespace Sys2Proof.Machine

/-! ### What the request lines follow -/

/-- The request lines and the registers that they follow. -/
structure Followed where
  cfg : Items
  rstLow : Bool
  free : Nat
  subReq : Bool
  dlvReq : Bool
  delivery : List Delivery
  quiet : Nat
  quietFlag : Bool

/-- The request lines of a state, and the registers that they follow. -/
def State.followed (s : State) : Followed where
  cfg := s.cfg
  rstLow := s.rstLow
  free := s.txs.free
  subReq := s.lpt.subReq
  dlvReq := s.lpt.dlvReq
  delivery := s.rxu.delivery
  quiet := s.rxu.quiet
  quietFlag := s.rxu.quietFlag

/-- The promises speak of the lines and of what they follow alone. -/
theorem LinesInv.congr {s t : State} (h : LinesInv s) (same : t.followed = s.followed) : LinesInv t := by
  obtain ⟨cfg, rstLow, free, subReq, dlvReq, delivery, quiet, quietFlag⟩ := Followed.mk.inj same
  exact
    { trigger := by rw [cfg]; exact h.trigger
      quietFlag := by rw [quietFlag, delivery]; exact h.quietFlag
      quiet := by rw [quiet, delivery]; exact h.quiet
      sub0 := by rw [rstLow, cfg, subReq, free]; exact h.sub0
      sub1on := by rw [rstLow, cfg, subReq, free]; exact h.sub1on
      sub1off := by rw [rstLow, cfg, subReq, free]; exact h.sub1off
      dlv0 := by rw [rstLow, cfg, dlvReq, delivery]; exact h.dlv0
      dlv1on := by rw [rstLow, cfg, dlvReq, delivery, quietFlag]; exact h.dlv1on
      dlv1off := by rw [rstLow, cfg, dlvReq, delivery]; exact h.dlv1off }

/-! ### The levels as they are driven (R178, R179) -/

theorem subNext_mode0 {s : State} (h : s.cfg.subMode = .mode0) : subNext s = true ↔ 8 ≤ s.txs.free := by
  simp [subNext, subCondition, h]

theorem subNext_mode1_on {s : State} (h : s.cfg.subMode = .mode1) (free : 32 ≤ s.txs.free) : subNext s = true := by
  simp [subNext, subCondition, h, free]

theorem subNext_mode1_off {s : State} (h : s.cfg.subMode = .mode1) (free : s.txs.free < 8) : subNext s = false := by
  have h32 : ¬ 32 ≤ s.txs.free := by omega
  have h8 : ¬ 8 ≤ s.txs.free := by omega
  simp [subNext, subCondition, h, h32, h8]

theorem dlvNext_mode0 {s : State} (h : s.cfg.dlvMode = .mode0) : dlvNext s = true ↔ s.rxu.delivery ≠ [] := by
  simp [dlvNext, dlvCondition, h]

theorem dlvNext_mode1_on {s : State} (h : s.cfg.dlvMode = .mode1)
    (due : s.cfg.trigger ≤ s.rxu.delivery.length ∨ s.rxu.quietFlag = true) : dlvNext s = true := by
  have hcause : deliveryCause s = true := by simpa [deliveryCause] using due
  simp [dlvNext, dlvCondition, h, hcause]

/-- An empty delivery queue is below every trigger and leaves no quiet flag, so neither condition of mode 1 holds (R126, R178). -/
theorem deliveryCause_of_empty {s : State} (trigger : 1 ≤ s.cfg.trigger) (empty : s.rxu.delivery = [])
    (flag : s.rxu.quietFlag = true → s.rxu.delivery ≠ []) : deliveryCause s = false := by
  have hflag : s.rxu.quietFlag = false := Bool.eq_false_iff.mpr fun hset => flag hset empty
  have htrigger : ¬ s.cfg.trigger ≤ 0 := by omega
  simp [deliveryCause, empty, hflag, htrigger]

theorem dlvNext_mode1_off {s : State} (h : s.cfg.dlvMode = .mode1) (trigger : 1 ≤ s.cfg.trigger)
    (flag : s.rxu.quietFlag = true → s.rxu.delivery ≠ []) (empty : s.rxu.delivery = []) : dlvNext s = false := by
  have hcause := deliveryCause_of_empty trigger empty flag
  simp [dlvNext, dlvCondition, h, hcause, empty]

/-! ### A line driven again -/

section

variable {s : State} (h : LinesInv s)
include h

/-- Whatever moves in the Transmit Scheduler, SUB_REQ follows when it is driven again (R84, R179). -/
theorem LinesInv.driveSub (x : Txs) : LinesInv (driveSub (s.withTxs x)) :=
  { h with
    sub0 := fun _ hmode => subNext_mode0 hmode
    sub1on := fun _ hmode hfree => subNext_mode1_on hmode hfree
    sub1off := fun _ hmode hfree => subNext_mode1_off hmode hfree }

/-- Whatever moves in the Receive Unit, DLV_REQ follows when it is driven again, where neither the quiet counter nor the quiet flag
stands over an empty queue (R127, R178). -/
theorem LinesInv.driveDlv {x : Rxu} (quiet : 0 < x.quiet → x.delivery ≠ []) (flag : x.quietFlag = true → x.delivery ≠ []) :
    LinesInv (driveDlv (s.withRxu x)) :=
  { h with
    quietFlag := flag
    quiet := quiet
    dlv0 := fun _ hmode => dlvNext_mode0 hmode
    dlv1on := fun _ hmode hdue => dlvNext_mode1_on hmode hdue
    dlv1off := fun _ hmode hempty => dlvNext_mode1_off (s := s.withRxu x) hmode h.trigger flag hempty }

/-! ### The station, and a fault -/

omit h in
@[simp] theorem returnContexts_free (t : Txs) : (returnContexts t).free = t.free := rfl

omit h in
@[simp] theorem raise_free (o : Occurrence) (u : State) : (raise o u).txs.free = u.txs.free := by
  rcases raise_txs u o with e | e <;> simp [e]

theorem LinesInv.raise (o : Occurrence) : LinesInv (raise o s) := h.congr (by simp [State.followed])

theorem LinesInv.raiseAll (os : List Occurrence) : LinesInv (raiseAll os s) :=
  raiseAll_induct (fun o _ hu => hu.raise o) os s h

theorem LinesInv.enterListen : LinesInv (enterListen s) := h.congr rfl

theorem LinesInv.enterActive : LinesInv (enterActive s) := h.congr rfl

theorem LinesInv.enterSilent : LinesInv (enterSilent s) := h.congr rfl

theorem LinesInv.enterConfig : LinesInv (enterConfig s) := h.congr rfl

omit h in
/-- A block reset leaves 64 free pool blocks with SUB_REQ active, and an empty queue with DLV_REQ inactive, in every mode (R104,
R130, R180). -/
theorem linesInv_of_reset {t : State} (trigger : 1 ≤ t.cfg.trigger) (txs : t.txs = State.reset.txs)
    (rxu : t.rxu = State.reset.rxu) (subReq : t.lpt.subReq = true) (dlvReq : t.lpt.dlvReq = false) : LinesInv t where
  trigger := trigger
  quietFlag := by rw [rxu]; exact nofun
  quiet := by rw [rxu]; exact nofun
  sub0 _ _ := by rw [subReq, txs]; decide
  sub1on _ _ _ := subReq
  sub1off _ _ hfree := by rw [txs] at hfree; exact absurd hfree (by decide)
  dlv0 _ _ := by rw [dlvReq, rxu]; decide
  dlv1on _ _ hdue := by
    rw [rxu] at hdue
    rcases hdue with hdue | hdue
    · exact absurd (trigger.trans hdue) (by decide)
    · cases hdue
  dlv1off _ _ _ := dlvReq

theorem LinesInv.softReset : LinesInv (softResetState s) := linesInv_of_reset h.trigger rfl rfl rfl rfl

theorem LinesInv.finishExit : LinesInv (finishExit s) := by
  unfold Machine.finishExit
  split
  · exact h.softReset
  · split
    · exact h
    · exact h.enterConfig
    · split
      · exact h.enterSilent
      · exact h.congr rfl

/-! ### The Receive Unit -/

/-- Entries that leave the table move no delivery record. -/
theorem LinesInv.discard (which : Entry → Bool) : LinesInv (s.withRxu (discardEntries which s.rxu)) := h.congr rfl

theorem LinesInv.ageOut (which : Entry → Bool) (p : Phase) (c : Cycle) : LinesInv (ageOut which p c s) :=
  (h.discard which).raiseAll _

omit h in
/-- The quiet counter and the quiet flag move over waiting records alone (R124). -/
theorem quietBoundary_over {limit : Nat} {x : Rxu} (quiet : 0 < x.quiet → x.delivery ≠ [])
    (flag : x.quietFlag = true → x.delivery ≠ []) :
    (0 < (quietBoundary limit x).quiet → (quietBoundary limit x).delivery ≠ []) ∧
      ((quietBoundary limit x).quietFlag = true → (quietBoundary limit x).delivery ≠ []) := by
  unfold quietBoundary
  split_ifs with hempty
  · exact ⟨quiet, flag⟩
  · have hwaits : x.delivery ≠ [] := by simpa using hempty
    exact ⟨fun _ => hwaits, fun _ => hwaits⟩
  · exact ⟨quiet, flag⟩

theorem LinesInv.quietBoundary (limit : Nat) : LinesInv (Machine.driveDlv (s.withRxu (quietBoundary limit s.rxu))) :=
  have hover := quietBoundary_over h.quiet h.quietFlag
  h.driveDlv hover.1 hover.2

theorem LinesInv.rxuBoundary (p : Phase) (c : Cycle) : LinesInv (rxuBoundary p c s) :=
  have hover := quietBoundary_over h.quiet h.quietFlag
  LinesInv.ageOut (h.driveDlv (x := raiseAges (Machine.quietBoundary s.cfg.quietLimit s.rxu)) hover.1 hover.2) _ p c

omit h in
theorem LinesInv.peerLosses (p : Phase) (c : Cycle) (as : List Addr) {u : State} (hu : LinesInv u) :
    LinesInv (as.foldl (peerLoss p c) u) := by
  induction as generalizing u with
  | nil => exact hu
  | cons a as ih => exact ih (hu.ageOut _ p c)

theorem LinesInv.pmnBoundary (whole : Bool) (p : Phase) (c : Cycle) : LinesInv (pmnBoundary whole p c s) :=
  LinesInv.peerLosses p c _ (h.congr rfl)

/-! ### A taken frame (R109 to R115) -/

/-- A delivery record appended to the queue starts the quiet counter again (R124). -/
theorem LinesInv.deliver (d : Delivery) {x : Rxu} : LinesInv (Machine.driveDlv (s.withRxu (appendDelivery d x))) :=
  h.driveDlv nofun fun _ => List.append_ne_nil_of_right_ne_nil _ (List.cons_ne_nil d [])

theorem LinesInv.lostEntry (f : TakenFrame) (kind : FaultKind) :
    LinesInv (Machine.raise (frameOccurrence kind f) (s.withRxu (discardEntry f.sender f.cls s.rxu))) :=
  (h.discard _).raise _

theorem LinesInv.replaceEntry (f : TakenFrame) : LinesInv (replaceEntry f s) := by
  unfold Machine.replaceEntry
  split
  · exact h
  · exact h.lostEntry f .sequence

theorem LinesInv.takeSingle (f : TakenFrame) : LinesInv (takeSingle f s) := by
  unfold Machine.takeSingle
  split
  · exact h.deliver _
  · exact h.raise _

theorem LinesInv.takeFirst (f : TakenFrame) : LinesInv (takeFirst f s) := by
  unfold Machine.takeFirst
  split
  · exact h.congr rfl
  · exact h.raise _

theorem LinesInv.takeMiddle (f : TakenFrame) (e : Entry) : LinesInv (takeMiddle f e s) := by
  unfold Machine.takeMiddle
  split
  · exact h.congr rfl
  · exact h.lostEntry f .noSpace

theorem LinesInv.takeLast (f : TakenFrame) (e : Entry) : LinesInv (takeLast f e s) := by
  unfold Machine.takeLast
  split
  · exact h.deliver _
  · exact h.lostEntry f .noSpace

theorem LinesInv.takeContinuation (f : TakenFrame) : LinesInv (takeContinuation f s) := by
  unfold Machine.takeContinuation
  split
  · exact h
  · split_ifs
    · exact h.takeLast f _
    · exact h.takeMiddle f _
    · exact h.lostEntry f .sequence

theorem LinesInv.takeFrame (f : TakenFrame) : LinesInv (takeFrame f s) := by
  unfold Machine.takeFrame
  split_ifs
  · exact (h.replaceEntry f).takeSingle f
  · exact (h.replaceEntry f).takeFirst f
  · exact h.takeContinuation f

/-! ### The start of a phase (R28, R87 to R98) -/

omit h in
@[simp] theorem settleContexts_free (m : Message) (t : Txs) : (settleContexts m t).free = t.free := by
  unfold settleContexts
  split
  · split_ifs <;> rfl
  · split_ifs <;> rfl
  · rfl

omit h in
@[simp] theorem sendRequest_free (r : FrameRequest) (u : State) : (sendRequest r u).txs.free = u.txs.free := by
  unfold sendRequest
  split
  · cases r with
    | fill => rfl
    | data tag index last => simp only; split <;> rfl
  · rfl

/-- A selection moves pool blocks where it discards an unreachable message, and drives SUB_REQ each time (R84, R89). -/
theorem LinesInv.select (fuel : Nat) (floor : Cls) : LinesInv (select fuel floor s).1 := by
  induction fuel generalizing s with
  | zero => exact h
  | succ fuel ih =>
    unfold Machine.select
    split
    · exact h
    · split_ifs
      · exact h
      · exact ih (h.driveSub _)
      · exact h.congr (by simp [State.followed])

theorem LinesInv.ownPhaseStart (floor : Cls) : LinesInv (ownPhaseStart floor s) := by
  have hselected := h.select ((messages s.txs).length + 1) floor
  unfold Machine.ownPhaseStart
  exact hselected.congr (by simp [State.followed])

theorem LinesInv.phaseStart : LinesInv (phaseStart s) := by
  have hstarted : LinesInv (s.withCtr { s.ctr with skip := .running Config.skipTime }) := h.congr rfl
  unfold Machine.phaseStart
  simp only
  split
  · split
    · exact hstarted.ownPhaseStart _
    · exact hstarted
  · exact hstarted

/-! ### Phase ends and frame ends -/

theorem LinesInv.runTask (w : Work) (whole : Bool) (p : Phase) (c : Cycle) (t : Task) :
    LinesInv (runTask w whole p c t s) := by
  cases t with
  | fault => exact h.raiseAll _
  | frame =>
    simp only [Machine.runTask]
    split
    · exact h.takeFrame _
    · exact h
  | aging => exact h.rxuBoundary p c
  | presence => exact h.pmnBoundary whole p c

theorem LinesInv.phaseEndWith (o : Config.FrameEndOrder) (w : Work) : LinesInv (phaseEndWith o w s) :=
  phaseEndWith_induct (fun _ _ hu => hu.congr rfl) (fun whole p c t _ hu => hu.runTask w whole p c t)
    (fun _ hu => hu.phaseStart) o (h.congr (by simp [State.followed]))

theorem LinesInv.phaseEnd (w : Work) : LinesInv (phaseEnd w s) :=
  LinesInv.phaseEndWith (s := useOrder w s) (h.congr (by simp [State.followed])) _ w

theorem LinesInv.skipExpire : LinesInv (skipExpire s) := LinesInv.phaseEnd (s := dropUnheard s) (h.congr rfl) .nothing

theorem LinesInv.dropFrame : LinesInv (dropFrame s) := h.congr rfl

theorem LinesInv.cleanFrameEnd (f : Gather) : LinesInv (cleanFrameEnd f s) := by
  unfold Machine.cleanFrameEnd
  exact LinesInv.phaseEndWith (h.dropFrame.congr (by simp [State.followed])) _ _

theorem LinesInv.faultFrameEnd (f : Gather) (x : FrameOutcome) (k : FaultKind) : LinesInv (faultFrameEnd f x k s) := by
  have hnoted : LinesInv (noteFault f.bytes x (Machine.dropFrame s)) :=
    h.dropFrame.congr (by simp [State.followed])
  unfold Machine.faultFrameEnd
  simp only
  split
  · exact (hnoted.phaseEnd _).enterListen
  · exact hnoted.phaseEnd _

theorem LinesInv.ownFrameEnd : LinesInv (ownFrameEnd s) := by
  unfold Machine.ownFrameEnd
  split_ifs
  · refine LinesInv.phaseEnd (LinesInv.enterActive ?_) _
    exact h.congr rfl
  · exact h.phaseEnd _
  · exact h

theorem LinesInv.endFrame : LinesInv (endFrame s) := by
  unfold Machine.endFrame
  split
  · exact h
  · split_ifs
    · exact h.congr rfl
    · exact h.dropFrame.ownFrameEnd
    · simp only
      split
      · exact h.cleanFrameEnd _
      · exact h.faultFrameEnd _ _ _

end

end Sys2Proof.Machine
end

section
/-! SUPPORT. The two request lines over every transaction, every event and every command, and so over every step (R84, R127, R172,
R178, R179). -/

namespace Sys2Proof.Machine

/-! ### SETUP (R171, R172) -/

/-- A SETUP in range carries a trigger of at least 1 (R171). -/
theorem setupInRange_trigger {args : List Byte} (h : setupInRange args = true) : 1 ≤ arg args 21 := by
  simp [setupInRange] at h
  omega

/-- A line that holds no level takes its condition as it stands when it is driven. -/
theorem dlvNext_of_inactive {s : State} (inactive : s.lpt.dlvReq = false) : dlvNext s = dlvCondition s := by
  simp [dlvNext, inactive]

theorem subNext_of_inactive {s : State} (inactive : s.lpt.subReq = false) : subNext s = subCondition s := by
  simp [subNext, inactive]

/-- The state with both request lines inactive. -/
def linesReleased (s : State) : State := s.withLpt { s.lpt with dlvReq := false, subReq := false }

/-- SETUP leaves the lines as they are driven from inactive levels (R172). -/
theorem settleLines_eq (s : State) : settleLines s = driveSub (driveDlv (linesReleased s)) := by
  have hdlv : dlvNext (linesReleased s) = dlvCondition s := dlvNext_of_inactive rfl
  have hsub : subNext (driveDlv (linesReleased s)) = subCondition s := subNext_of_inactive rfl
  rw [driveSub, hsub, driveDlv, hdlv]
  rfl

/-- Both lines driven follow their modes from any levels. -/
theorem linesInv_driven {s : State} (trigger : 1 ≤ s.cfg.trigger) (quiet : 0 < s.rxu.quiet → s.rxu.delivery ≠ [])
    (flag : s.rxu.quietFlag = true → s.rxu.delivery ≠ []) : LinesInv (driveSub (driveDlv s)) where
  trigger := trigger
  quietFlag := flag
  quiet := quiet
  sub0 _ hmode := subNext_mode0 (s := driveDlv s) hmode
  sub1on _ hmode hfree := subNext_mode1_on (s := driveDlv s) hmode hfree
  sub1off _ hmode hfree := subNext_mode1_off (s := driveDlv s) hmode hfree
  dlv0 _ hmode := dlvNext_mode0 (s := s) hmode
  dlv1on _ hmode hdue := dlvNext_mode1_on (s := s) hmode hdue
  dlv1off _ hmode hempty := dlvNext_mode1_off (s := s) hmode trigger flag hempty

section

variable {s : State} (h : LinesInv s)
include h

/-- New items: a quiet counter that comes down to Q, and the flag that this sets, stand over waiting records (R172). -/
theorem LinesInv.applySetup {items : Items} (trigger : 1 ≤ items.trigger) : LinesInv (applySetup items s) := by
  unfold Machine.applySetup
  rw [settleLines_eq]
  refine linesInv_driven trigger (fun hquiet => h.quiet ?_) fun hflag => ?_
  · exact lt_of_lt_of_le hquiet (Nat.min_le_left _ _)
  · rcases Bool.or_eq_true_iff.mp hflag with hset | hover
    · exact h.quietFlag hset
    · exact h.quiet (Nat.zero_lt_of_lt (of_decide_eq_true hover))

theorem LinesInv.applyJoin : LinesInv (applyJoin s) := h.congr rfl

/-! ### Transactions of the local port -/

/-- A fetched record ends the quiet interval (R122, R124). -/
theorem LinesInv.fetched (d : Delivery) (rest : List Delivery) :
    LinesInv (Machine.driveDlv (s.withRxu (fetched d rest s.rxu))) :=
  h.driveDlv nofun nofun

/-- The owning block's decision keeps the lines, refusal or not. -/
theorem LinesInv.decideCommand (c : Command) : LinesInv (decideCommand c s).state := by
  cases c with
  | setup =>
    simp only [Machine.decideCommand, decideSetup]
    split_ifs with hc hr
    · exact h
    · exact h.applySetup (setupInRange_trigger hr)
    · exact h
  | table =>
    simp only [Machine.decideCommand, decideTable]
    split_ifs
    · exact h
    · exact h
    · exact h.congr rfl
    · exact h
  | join =>
    simp only [Machine.decideCommand, decideJoin]
    split_ifs
    · exact h
    · exact h
    · exact h.applyJoin
  | leave =>
    simp only [Machine.decideCommand, decideLeave, applyLeave]
    split_ifs
    · exact h
    · exact h.congr rfl
    · exact h.enterConfig
  | rejoin =>
    simp only [Machine.decideCommand, decideRejoin]
    split_ifs
    · exact h.congr rfl
    · exact h
  | restart | enable | status | faults | faultClear | counter => exact h.congr rfl
  | test =>
    simp only [Machine.decideCommand, decideTest]
    split_ifs
    · exact h
    · exact h.congr rfl
  | submit =>
    simp only [Machine.decideCommand, decideSubmit]
    split_ifs
    · exact h
    · exact h
    · exact h
    · exact h
    · exact h.driveSub _
  | withdraw =>
    simp only [Machine.decideCommand, decideWithdraw]
    split
    · exact h
    · split_ifs
      · exact h
      · exact h
      · exact h.driveSub _
  | completions =>
    simp only [Machine.decideCommand, decideCompletions]
    split_ifs
    · exact h
    · exact h
    · exact h.congr rfl
  | fetch =>
    simp only [Machine.decideCommand, decideFetch]
    split
    · exact h
    · exact h.fetched _ _
  | peers =>
    simp only [Machine.decideCommand, decidePeers]
    split_ifs
    · exact h
    · rw [grant_state]
      exact h.congr (by simp [State.followed])
  | snapshot =>
    simp only [Machine.decideCommand, decideSnapshot]
    split
    · exact h.congr rfl
    · exact h

omit h in
theorem LinesInv.answer {a : Answer} (h : LinesInv a.state) : LinesInv (answer a) := h.congr rfl

theorem LinesInv.takeCommand (c : Command) : LinesInv (takeCommand c s) := by
  unfold Machine.takeCommand
  split
  · exact LinesInv.answer h
  · exact LinesInv.answer (h.decideCommand c)

theorem LinesInv.transact (c : Command) (args payload : List Byte) : LinesInv (transact c args payload s) := by
  have hreceived : LinesInv (receiveAll c args payload s) := h.congr rfl
  unfold Machine.transact
  split
  · exact hreceived.takeCommand c
  · exact h

/-! ### Bytes of the local port -/

theorem LinesInv.passOn (c : Command) (b : Byte) : LinesInv (passOn c b s) := by
  unfold Machine.passOn
  simp only
  split <;> exact h.congr rfl

theorem LinesInv.commandByte (b : Byte) : LinesInv (commandByte b s) := by
  unfold Machine.commandByte
  simp only
  split
  · exact LinesInv.answer (h.congr rfl)
  · split
    · refine LinesInv.takeCommand ?_ _
      exact h.congr rfl
    · exact h.congr rfl

theorem LinesInv.argumentByte (b : Byte) : LinesInv (argumentByte b s) := by
  unfold Machine.argumentByte
  split
  · exact h
  · split
    · exact (h.passOn _ b).takeCommand _
    · exact h.passOn _ b

theorem LinesInv.replyByte : LinesInv (replyByte s) := by
  unfold Machine.replyByte
  split <;> exact h.congr rfl

theorem LinesInv.receiveByte (b : Byte) : LinesInv (receiveByte b s) := by
  unfold Machine.receiveByte
  split
  · exact h
  · exact h.commandByte b
  · exact h.argumentByte b
  · exact h.replyByte
  · exact h.congr rfl

theorem LinesInv.portIdle : LinesInv (portIdle s) := h.congr rfl

theorem LinesInv.riseReset : LinesInv (riseReset s) := by
  unfold Machine.riseReset
  split_ifs
  · exact h.congr rfl
  · exact h.softReset
  · exact h

/-! ### Events of the line -/

theorem LinesInv.useUnheard : LinesInv (useUnheard s) := by
  unfold Machine.useUnheard
  split
  · exact h.congr rfl
  · exact h

theorem LinesInv.takeChar (ch : RxChar) : LinesInv (takeChar ch s) := by
  unfold Machine.takeChar
  simp only
  split <;> exact h.congr rfl

theorem LinesInv.dueSkip : LinesInv (dueSkip s) := by
  unfold Machine.dueSkip
  split
  · exact h.skipExpire
  · exact h

theorem LinesInv.afterSample : LinesInv (afterSample s) := by
  unfold Machine.afterSample
  split_ifs
  · exact h
  · refine (LinesInv.endFrame ?_).dueSkip
    exact h.congr rfl
  · exact h.dueSkip

/-- Whether the COLD frame starts, waits or is given up, the station alone may move. -/
theorem LinesInv.requestCold : LinesInv (requestCold s) := h.congr (by simp [State.followed])

theorem LinesInv.driverOff : LinesInv (driverOff s) := h.congr rfl

/-- A last segment that is sent returns the pool blocks of its message, and SUB_REQ is driven (R84, R99). -/
theorem LinesInv.reportClean : LinesInv (reportClean s) := by
  unfold Machine.reportClean
  split
  · refine LinesInv.driveSub ?_ _
    exact h.congr rfl
  · exact h.congr rfl
  all_goals exact h

theorem LinesInv.reportFailure : LinesInv (reportFailure s) := by
  unfold Machine.reportFailure
  split
  · simp only
    split <;> exact h.congr rfl
  · split <;> exact h.congr rfl
  all_goals exact h

theorem LinesInv.echoFailureWith (stoppingFirst : Bool) (x : Transmission) :
    LinesInv (echoFailureWith stoppingFirst x s) := by
  unfold Machine.echoFailureWith
  split
  · exact (h.driverOff.raise _).reportFailure
  · exact h.driverOff.reportFailure.raise _

/-! ### Every command -/

/-- A row of the line, of its timers or of a cycle boundary keeps the lines. -/
theorem LinesInv.execLine {i : Instr} (line : LineEvent i) : Yields LinesInv (exec i s) := by
  have stay := yields_next h
  cases i with
  | receiverSettled | fallingEdge | breakEnded | periodicTransfer => exact yields_ite (fun _ => yields_next (h.congr rfl)) stay
  | startBitSeen =>
    simp only [exec, execStartBitSeen]
    split
    · exact yields_next (h.congr rfl)
    · exact yields_next (h.useUnheard.congr rfl)
    · exact stay
  | characterReceived data good => exact yields_ite (fun _ => yields_next (h.takeChar _)) stay
  | frameEnd =>
    refine yields_ite (fun _ => ?_) stay
    split
    · exact yields_next h.endFrame
    · exact yields_next h.endFrame
    · exact yields_next (h.congr rfl)
    · exact stay
  | entryAged sender cls => exact yields_ite (fun _ => yields_next (h.ageOut _ _ _)) stay
  | quietLimitReached => exact yields_ite (fun _ => yields_next (h.quietBoundary _)) stay
  | echoClean =>
    simp only [exec, execEchoClean]
    split
    · exact yields_ite (fun _ => yields_next h.driverOff.reportClean.finishExit) stay
    · exact stay
  | echoFailure =>
    simp only [exec, execEchoFailure]
    split
    · refine yields_ite (fun _ => stay) (yields_ite (fun _ => yields_next ?_) (yields_next ?_))
      · refine LinesInv.finishExit (LinesInv.echoFailureWith ?_ _ _)
        exact h.congr rfl
      · exact (h.echoFailureWith _ _).finishExit
    · exact stay
  | cut => exact yields_ite (fun _ => yields_next (LinesInv.finishExit (h.congr rfl))) stay
  | skipExpiry => exact yields_ite (fun _ => yields_ite (fun _ => yields_next (h.congr rfl)) (yields_next h.skipExpire)) stay
  | coldStartWaitExpiry =>
    refine yields_ite (fun _ => yields_next ?_) stay
    exact LinesInv.requestCold (h.congr rfl)
  | falseStart => exact yields_ite (fun _ => yields_next (LinesInv.afterSample (h.congr rfl))) stay
  | _ => exact line.elim

omit h in
theorem trigger_reset : 1 ≤ State.reset.cfg.trigger := by decide

/-- The lines stand at their reset levels; while RST_N is low SUB_REQ is held inactive, and nothing is claimed of it (R64). -/
theorem LinesInv.execFullReset (level : Level) : Yields LinesInv (exec (.fullReset level) s) := by
  cases level with
  | low =>
    exact yields_next
      { trigger := trigger_reset, quietFlag := nofun, quiet := nofun, sub0 := nofun, sub1on := nofun, sub1off := nofun,
        dlv0 := nofun, dlv1on := nofun, dlv1off := nofun }
  | high => exact yields_ite (fun _ => yields_next (linesInv_of_reset trigger_reset rfl rfl rfl rfl)) (yields_next h)

/-- Every command keeps the lines. -/
theorem LinesInv.exec (i : Instr) : Yields LinesInv (exec i s) := by
  have stay := yields_next h
  cases hi : transactionOf i with
  | some transaction => rw [exec_transaction s hi]; exact yields_next (h.transact _ _ _)
  | none =>
    cases i with
    | fullReset level => exact h.execFullReset level
    | softReset => exact yields_ite (fun _ => yields_next h.softReset) stay
    | selNFall => exact yields_ite (fun _ => yields_next (h.congr rfl)) stay
    | transactionAbandoned => exact yields_ite (fun _ => yields_next h.portIdle) stay
    | transactionEnd => exact yields_ite (fun _ => yields_next h.portIdle.riseReset) stay
    | unknownCommand code => exact yields_ite (fun _ => yields_next (LinesInv.answer (h.congr rfl))) stay
    | portByteCompleted b => exact yields_next (h.receiveByte b)
    | receiverSettled | startBitSeen | characterReceived | frameEnd | entryAged | quietLimitReached | periodicTransfer
    | echoClean | echoFailure | cut | skipExpiry | coldStartWaitExpiry | fallingEdge | falseStart | breakEnded =>
      exact h.execLine trivial
    | _ => cases hi

end

end Sys2Proof.Machine

namespace Sys2Proof.Proofs

open Sys2Proof.Machine

/-- Settles O60: a line is driven wherever the delivery queue, the quiet flag or the transmit pool moves, and neither the quiet counter
nor the quiet flag stands over an empty queue. -/
theorem linesKeptByStep : Obligations.LinesKeptByStep := by
  intro s t h hstep
  unfold step at hstep
  split at hstep
  · cases hstep
    exact h
  · next i rest _ =>
    have hs : LinesInv (s.withPending rest) := h.congr rfl
    exact hs.exec i t hstep

end Sys2Proof.Proofs
end

section
/-! SUPPORT. What no event of the line changes: the configuration, the phase table, the reset input, the staging area, the armed soft
reset and the Local Port (R24, R46, R47, R63, R67, R168, R171); and that every command has a next state. -/

namespace Sys2Proof.Machine

/-! ### What stands over an event of the line -/

/-- The registers that an event of the line leaves alone, with the Local Port apart from the levels of its request lines. -/
structure Standing where
  cfg : Items
  rstLow : Bool
  table : List PhaseEntry
  digest : Byte
  staging : List Byte
  softReset : SoftReset
  port : Lpt

/-- The registers of a state that an event of the line leaves alone. -/
def State.standing (s : State) : Standing where
  cfg := s.cfg
  rstLow := s.rstLow
  table := s.ctr.table
  digest := s.ctr.digest
  staging := s.txs.staging
  softReset := s.stc.softReset
  port := { s.lpt with dlvReq := false, subReq := false }

/-- Equal standing registers, one by one. -/
theorem kept_of_standing {s t : State} (h : t.standing = s.standing) :
    t.cfg = s.cfg ∧ t.rstLow = s.rstLow ∧ t.ctr.table = s.ctr.table ∧ t.ctr.digest = s.ctr.digest ∧
      t.txs.staging = s.txs.staging ∧ t.stc.softReset = s.stc.softReset ∧
      t.lpt = { s.lpt with dlvReq := t.lpt.dlvReq, subReq := t.lpt.subReq } :=
  ⟨congrArg Standing.cfg h, congrArg Standing.rstLow h, congrArg Standing.table h, congrArg Standing.digest h,
    congrArg Standing.staging h, congrArg Standing.softReset h,
    congrArg (fun x : Standing => { x.port with dlvReq := t.lpt.dlvReq, subReq := t.lpt.subReq }) h⟩

section

variable (s : State)

@[simp] theorem standing_withLif (x : Lif) : (s.withLif x).standing = s.standing := rfl
@[simp] theorem standing_withFru (x : Fru) : (s.withFru x).standing = s.standing := rfl
@[simp] theorem standing_withRxu (x : Rxu) : (s.withRxu x).standing = s.standing := rfl
@[simp] theorem standing_withPmn (x : Pmn) : (s.withPmn x).standing = s.standing := rfl
@[simp] theorem standing_withFlt (x : Flt) : (s.withFlt x).standing = s.standing := rfl
@[simp] theorem standing_withFreeCount (x : Nat) : (s.withFreeCount x).standing = s.standing := rfl

theorem standing_withTxs {x : Txs} (staging : x.staging = s.txs.staging) : (s.withTxs x).standing = s.standing := by
  simp only [State.standing, State.withTxs, staging]

/-! ### The station, faults and lines -/

@[simp] theorem enterListen_standing : (enterListen s).standing = s.standing := rfl
@[simp] theorem enterActive_standing : (enterActive s).standing = s.standing := rfl
@[simp] theorem enterSilent_standing : (enterSilent s).standing = s.standing := rfl
@[simp] theorem enterConfig_standing : (enterConfig s).standing = s.standing := rfl
@[simp] theorem driveDlv_standing : (driveDlv s).standing = s.standing := rfl
@[simp] theorem driveSub_standing : (driveSub s).standing = s.standing := rfl

@[simp] theorem stoppingReport_standing : (stoppingReport s).standing = s.standing := by
  unfold stoppingReport
  split_ifs <;> rfl

@[simp] theorem raise_standing (o : Occurrence) : (raise o s).standing = s.standing := by
  unfold raise
  split_ifs <;> simp

theorem standing_standsOverTasks : StandsOverTasks fun u => u.standing = s.standing where
  report o u hu := (raise_standing u o).trans hu
  receive _ _ hu := hu
  peers _ _ hu := hu
  line _ hu := hu

@[simp] theorem ageOut_standing (which : Entry → Bool) (p : Phase) (c : Cycle) : (ageOut which p c s).standing = s.standing :=
  (standing_standsOverTasks s).ageOut which p c rfl

/-- With no soft reset waiting, the change of state that waits for the cut leaves the registers alone (R59). -/
theorem finishExit_standing (h : s.stc.softReset ≠ .waiting) : (finishExit s).standing = s.standing := by
  unfold finishExit
  rw [if_neg h]
  split
  · rfl
  · rfl
  · split <;> rfl

/-! ### The start of a phase -/

@[simp] theorem settleContexts_staging (m : Message) (t : Txs) : (settleContexts m t).staging = t.staging := by
  unfold settleContexts
  split
  · split_ifs <;> rfl
  · split_ifs <;> rfl
  · rfl

@[simp] theorem select_standing (fuel : Nat) (floor : Cls) : (select fuel floor s).1.standing = s.standing := by
  induction fuel generalizing s with
  | zero => rfl
  | succ fuel ih =>
    unfold select
    split
    · rfl
    · split_ifs
      · rfl
      · rw [ih, driveSub_standing]
        rfl
      · exact standing_withTxs s (settleContexts_staging _ _)

@[simp] theorem sendRequest_standing (r : FrameRequest) : (sendRequest r s).standing = s.standing := by
  unfold sendRequest
  split
  · cases r with
    | fill => rfl
    | data tag index last => simp only; split <;> rfl
  · rfl

@[simp] theorem phaseStart_standing : (phaseStart s).standing = s.standing := by
  unfold phaseStart
  simp only
  split
  · split
    · rw [ownPhaseStart, sendRequest_standing, select_standing]
      rfl
    · rfl
  · rfl

/-! ### Phase ends and frame ends -/

@[simp] theorem countAtEnd_standing (o : Config.FrameEndOrder) (boundary : Bool) (n : Nat) :
    (countAtEnd o boundary n s).standing = s.standing := by
  unfold countAtEnd
  split_ifs <;> rfl

@[simp] theorem useOrder_standing (w : Work) : (useOrder w s).standing = s.standing := by
  unfold useOrder
  split <;> rfl

/-- The advance moves p, c, the whole-cycle flag and HOLD (R31, R32). -/
theorem advanced_standing : (s.withCtr (advanced s)).standing = s.standing := by
  unfold advanced
  split <;> rfl

@[simp] theorem phaseEndWith_standing (o : Config.FrameEndOrder) (w : Work) :
    (phaseEndWith o w s).standing = s.standing :=
  phaseEndWith_induct (P := fun u => u.standing = s.standing) (fun _ _ hu => hu)
    (fun whole p c t _ hu => (standing_standsOverTasks s).runTask w whole p c t hu)
    (fun u hu => (phaseStart_standing u).trans hu) o ((countAtEnd_standing _ _ _ _).trans (advanced_standing s))

@[simp] theorem phaseEnd_standing (w : Work) : (phaseEnd w s).standing = s.standing := by
  simp [phaseEnd]

@[simp] theorem dropUnheard_standing : (dropUnheard s).standing = s.standing := rfl
@[simp] theorem dropFrame_standing : (dropFrame s).standing = s.standing := rfl

@[simp] theorem skipExpire_standing : (skipExpire s).standing = s.standing := by
  simp [skipExpire]

@[simp] theorem trackClean_standing (b : List Byte) : (trackClean b s).standing = s.standing := by
  unfold trackClean
  simp only
  split_ifs <;> rfl

@[simp] theorem notePeer_standing (b : List Byte) (e : Option Nat) : (notePeer b e s).standing = s.standing := by
  unfold notePeer
  simp only
  split <;> rfl

@[simp] theorem noteFault_standing (b : List Byte) (x : FrameOutcome) : (noteFault b x s).standing = s.standing := by
  unfold noteFault
  split <;> rfl

@[simp] theorem cleanFrameEnd_standing (f : Gather) : (cleanFrameEnd f s).standing = s.standing := by
  simp [cleanFrameEnd]

@[simp] theorem faultFrameEnd_standing (f : Gather) (x : FrameOutcome) (k : FaultKind) :
    (faultFrameEnd f x k s).standing = s.standing := by
  unfold faultFrameEnd
  simp only
  split <;> simp

@[simp] theorem ownFrameEnd_standing : (ownFrameEnd s).standing = s.standing := by
  unfold ownFrameEnd
  split_ifs
  · rw [phaseEnd_standing, enterActive_standing]
    rfl
  · simp
  · rfl

@[simp] theorem endFrame_standing : (endFrame s).standing = s.standing := by
  unfold endFrame
  split
  · rfl
  · split_ifs
    · rfl
    · simp
    · simp only
      split <;> simp

@[simp] theorem dueSkip_standing : (dueSkip s).standing = s.standing := by
  unfold dueSkip
  split <;> simp

@[simp] theorem afterSample_standing : (afterSample s).standing = s.standing := by
  unfold afterSample
  split_ifs <;> simp

/-! ### The receiver, the line timers and the transmit outcomes -/

@[simp] theorem useUnheard_standing : (useUnheard s).standing = s.standing := by
  rw [useUnheard_eq, standing_withFreeCount]

@[simp] theorem useUnheard_pending : (useUnheard s).pending = s.pending := by
  rw [useUnheard_eq, State.withFreeCount_pending]

@[simp] theorem lineActivity_standing : (lineActivity s).standing = s.standing := rfl

@[simp] theorem takeChar_standing (ch : RxChar) : (takeChar ch s).standing = s.standing := by
  unfold takeChar
  simp only
  split <;> rfl

@[simp] theorem requestCold_standing : (requestCold s).standing = s.standing := by
  unfold requestCold
  split_ifs <;> rfl

@[simp] theorem driverOff_standing : (driverOff s).standing = s.standing := rfl

@[simp] theorem txsEchoClean_staging (t : Txs) : (txsEchoClean t).staging = t.staging := by
  unfold txsEchoClean
  simp only
  split
  · split
    · split <;> rfl
    · rfl
  · rfl

@[simp] theorem reportClean_standing : (reportClean s).standing = s.standing := by
  unfold reportClean
  split
  · exact standing_withTxs (s.withLif { s.lif with echoFailures := 0 }) (txsEchoClean_staging _)
  · rfl
  all_goals rfl

@[simp] theorem reportFailure_standing : (reportFailure s).standing = s.standing := by
  unfold reportFailure
  split
  · simp only
    split <;> rfl
  · split <;> rfl
  all_goals rfl

@[simp] theorem echoFailureWith_standing (stoppingFirst : Bool) (x : Transmission) :
    (echoFailureWith stoppingFirst x s).standing = s.standing := by
  unfold echoFailureWith
  split <;> simp

end

/-! ### Every command has a next state -/

/-- The outcome is a next state that has a property. -/
def Reaches (P : State → Prop) (o : Host.Outcome State Fault Refusal) : Prop := ∃ t, o = .next t ∧ P t

theorem reaches_next {P : State → Prop} {t : State} (h : P t) : Reaches P (.next t) := ⟨t, rfl, h⟩

theorem reaches_ite {P : State → Prop} {p : Prop} [Decidable p] {x y : Host.Outcome State Fault Refusal} (hx : Reaches P x)
    (hy : Reaches P y) : Reaches P (if p then x else y) := by
  split
  · exact hx
  · exact hy

/-- What an event of the line keeps: the queue of waiting commands always, the standing registers with no soft reset waiting. -/
def LineKeeps (s t : State) : Prop := t.pending = s.pending ∧ (s.stc.softReset ≠ .waiting → t.standing = s.standing)

theorem reaches_event {s t : State} (pending : t.pending = s.pending := by simp)
    (standing : t.standing = s.standing := by simp) : Reaches (LineKeeps s) (.next t) :=
  reaches_next ⟨pending, fun _ => standing⟩

/-- A transmit outcome, and then the change of state that waits for the cut (R59). -/
theorem reaches_outcome {s u : State} (pending : u.pending = s.pending := by simp)
    (standing : u.standing = s.standing := by simp) : Reaches (LineKeeps s) (.next (finishExit u)) := by
  have hreset : u.stc.softReset = s.stc.softReset := congrArg Standing.softReset standing
  refine reaches_next ⟨by rw [finishExit_pending, pending], fun hw => ?_⟩
  rw [finishExit_standing u (hreset ▸ hw), standing]

/-- Every event of the line has a next state, and keeps what stands. -/
theorem exec_lineKeeps {i : Instr} (line : LineEvent i) (s : State) : Reaches (LineKeeps s) (exec i s) := by
  have stay : Reaches (LineKeeps s) (.next s) := reaches_event rfl rfl
  cases i with
  | receiverSettled | fallingEdge | breakEnded | periodicTransfer => exact reaches_ite reaches_event stay
  | startBitSeen =>
    simp only [exec, execStartBitSeen]
    split
    · exact reaches_event
    · exact reaches_event
    · exact stay
  | characterReceived data good => exact reaches_ite reaches_event stay
  | frameEnd =>
    refine reaches_ite ?_ stay
    split
    · exact reaches_event
    · exact reaches_event
    · exact reaches_event
    · exact stay
  | entryAged sender cls => exact reaches_ite reaches_event stay
  | quietLimitReached => exact reaches_ite reaches_event stay
  | echoClean =>
    simp only [exec, execEchoClean]
    split
    · exact reaches_ite reaches_outcome stay
    · exact stay
  | echoFailure =>
    simp only [exec, execEchoFailure]
    split
    · exact reaches_ite stay (reaches_ite reaches_outcome reaches_outcome)
    · exact stay
  | cut => exact reaches_ite (reaches_outcome rfl rfl) stay
  | skipExpiry => exact reaches_ite (reaches_ite (reaches_event rfl rfl) reaches_event) stay
  | coldStartWaitExpiry => exact reaches_ite (reaches_event (by simp) ((requestCold_standing _).trans rfl)) stay
  | falseStart => exact reaches_ite reaches_event stay
  | _ => exact line.elim

theorem exec_line_pending {i : Instr} (line : LineEvent i) (s : State) :
    Reaches (fun t => t.pending = s.pending) (exec i s) := by
  obtain ⟨t, hexec, hpending, -⟩ := exec_lineKeeps line s
  exact ⟨t, hexec, hpending⟩

/-! ### The queue of waiting commands over the Local Port -/

/-- No decision touches the queue of waiting commands. -/
theorem decideCommand_pending (c : Command) (s : State) : (decideCommand c s).state.pending = s.pending := by
  cases c with
  | setup => simp only [decideCommand, decideSetup]; split_ifs <;> rfl
  | table => simp only [decideCommand, decideTable]; split_ifs <;> rfl
  | join => simp only [decideCommand, decideJoin]; split_ifs <;> rfl
  | leave => simp only [decideCommand, decideLeave, applyLeave]; split_ifs <;> rfl
  | rejoin => simp only [decideCommand, decideRejoin]; split_ifs <;> rfl
  | test => simp only [decideCommand, decideTest]; split_ifs <;> rfl
  | submit => simp only [decideCommand, decideSubmit]; split_ifs <;> rfl
  | withdraw =>
    simp only [decideCommand, decideWithdraw]
    split
    · rfl
    · split_ifs <;> rfl
  | completions => simp only [decideCommand, decideCompletions]; split_ifs <;> rfl
  | fetch => simp only [decideCommand, decideFetch]; split <;> rfl
  | peers =>
    simp only [decideCommand, decidePeers]
    split_ifs
    · rfl
    · rw [grant_state, State.withPmn_pending]
  | snapshot => simp only [decideCommand, decideSnapshot]; split <;> rfl
  | restart | enable | status | faults | faultClear | counter => rfl

theorem takeCommand_pending (c : Command) (s : State) : (takeCommand c s).pending = s.pending := by
  unfold takeCommand
  split
  · rfl
  · exact decideCommand_pending c s

theorem transact_pending (c : Command) (args payload : List Byte) (s : State) :
    (transact c args payload s).pending = s.pending := by
  unfold transact
  split
  · rw [takeCommand_pending, receiveAll_pending]
  · rfl

theorem passOn_pending (c : Command) (b : Byte) (s : State) : (passOn c b s).pending = s.pending := by
  unfold passOn
  simp only
  split <;> rfl

theorem commandByte_pending (b : Byte) (s : State) : (commandByte b s).pending = s.pending := by
  unfold commandByte
  simp only
  split
  · rfl
  · split
    · rw [takeCommand_pending]
      rfl
    · rfl

theorem argumentByte_pending (b : Byte) (s : State) : (argumentByte b s).pending = s.pending := by
  unfold argumentByte
  split
  · rfl
  · split
    · rw [takeCommand_pending, passOn_pending]
    · rw [passOn_pending]

theorem receiveByte_pending (b : Byte) (s : State) : (receiveByte b s).pending = s.pending := by
  unfold receiveByte
  split
  · rfl
  · exact commandByte_pending b s
  · exact argumentByte_pending b s
  · unfold replyByte
    split <;> rfl
  · rfl

theorem riseReset_pending (s : State) : (riseReset s).pending = s.pending := by
  unfold riseReset
  split_ifs <;> rfl

/-- Every command has a next state, with the queue of waiting commands as it stands. -/
theorem exec_pending (i : Instr) (s : State) : Reaches (fun t => t.pending = s.pending) (exec i s) := by
  have stay : Reaches (fun t => t.pending = s.pending) (.next s) := reaches_next rfl
  cases hi : transactionOf i with
  | some transaction => rw [exec_transaction s hi]; exact reaches_next (transact_pending _ _ _ s)
  | none =>
    cases i with
    | fullReset level =>
      cases level with
      | low => exact reaches_next rfl
      | high => exact reaches_ite (reaches_next rfl) stay
    | softReset | selNFall | transactionAbandoned | unknownCommand code => exact reaches_ite (reaches_next rfl) stay
    | transactionEnd => exact reaches_ite (reaches_next (riseReset_pending _)) stay
    | portByteCompleted b => exact reaches_next (receiveByte_pending b s)
    | receiverSettled | startBitSeen | characterReceived | frameEnd | entryAged | quietLimitReached | periodicTransfer
    | echoClean | echoFailure | cut | skipExpiry | coldStartWaitExpiry | fallingEdge | falseStart | breakEnded =>
      exact exec_line_pending (by trivial) s
    | _ => cases hi

end Sys2Proof.Machine

namespace Sys2Proof.Proofs

open Sys2Proof.Machine

/-- Settles O2: what an event of the line leaves alone it leaves alone in each of its operations, the soft reset at the cut apart. -/
theorem everyCommandGoesOn : Obligations.EveryCommandGoesOn := by
  intro i s
  obtain ⟨t, hexec, hpending⟩ := exec_pending i s
  refine ⟨t, hexec, hpending, fun line hw => ?_⟩
  obtain ⟨u, hline, -, hstanding⟩ := exec_lineKeeps line s
  obtain rfl : t = u := Host.Outcome.next.inj (hexec.symm.trans hline)
  exact kept_of_standing (hstanding hw)

end Sys2Proof.Proofs
end

section
/-! SUPPORT. The framing of the Local Port and its answers: SEL_N, codes the port does not know, refusals, and one byte by transaction
state (R63, R64, R67, R166 to R170, R181). -/

namespace Sys2Proof.Machine

variable {s : State}

/-! ### What the port's own changes leave alone -/

theorem sameOutside_refl (parts : List Part) (s : State) : SameOutside parts s s :=
  ⟨fun x _ => by cases x <;> rfl, rfl⟩

theorem sameOutside_withLpt (x : Lpt) (s : State) : SameOutside [.lpt] s (s.withLpt x) := by
  refine ⟨fun p hp => ?_, rfl⟩
  cases p with
  | lpt => simp at hp
  | _ => rfl

theorem sameOutside_portIdle (s : State) : SameOutside [.lpt, .txs] s (portIdle s) :=
  ((sameOutside_refl _ s).withTxs _).withLpt _

/-- A refusal that the port makes beside its byte count and SDO leaves everything but the answer as it stands. -/
theorem onlyAnswered_counted (r : Result) (n : Nat) (x : Option Byte) (s : State) :
    OnlyAnswered r [] s (answer (refuse r (s.withLpt { s.lpt with byteCount := n, sdo := x }))) :=
  ⟨⟨rfl, rfl, rfl⟩, rfl, ⟨rfl, rfl, rfl⟩,
    (((sameOutside_refl _ s).withLpt _).withTxs _).withLpt _⟩

/-! ### SEL_N (R63, R166, R168, R169) -/

theorem exec_selNFall_idle (h : s.lpt.state = .idle) (hr : s.rstLow = false) :
    exec .selNFall s = .next (s.withLpt
      { s.lpt with state := .command, byteCount := 0, command := none, args := [], reply := [], sdo := some idleByte }) :=
  if_pos ⟨h, hr⟩

theorem exec_selNFall_stay (h : s.lpt.state ≠ .idle ∨ s.rstLow = true) : exec .selNFall s = .next s := by
  refine if_neg fun ⟨hi, hr⟩ => h.elim (fun h => h hi) fun h => ?_
  rw [hr] at h
  cases h

theorem exec_transactionAbandoned_open (h : s.lpt.state = .command ∨ s.lpt.state = .arguments) :
    exec .transactionAbandoned s = .next (portIdle s) := if_pos h

theorem exec_transactionAbandoned_stay (h : s.lpt.state = .idle ∨ s.lpt.state = .answer ∨ s.lpt.state = .discard) :
    exec .transactionAbandoned s = .next s := by
  refine if_neg ?_
  rcases h with h | h | h <;> simp [h]

theorem exec_transactionEnd_taken (h : s.lpt.state = .answer ∨ s.lpt.state = .discard) :
    exec .transactionEnd s = .next (riseReset (portIdle s)) := if_pos h

theorem exec_transactionEnd_stay (h : s.lpt.state = .idle ∨ s.lpt.state = .command ∨ s.lpt.state = .arguments) :
    exec .transactionEnd s = .next s := by
  refine if_neg ?_
  rcases h with h | h | h <;> simp [h]

theorem riseReset_unarmed (h : s.stc.softReset ≠ .armed) : riseReset s = s := if_neg h

theorem riseReset_off (h : s.stc.softReset = .armed) (ht : s.lif.tx = none) : riseReset s = softResetState s := by
  simp [riseReset, h, ht]

theorem riseReset_on (h : s.stc.softReset = .armed) (ht : s.lif.tx ≠ none) :
    riseReset s = s.withStc { s.stc with softReset := .waiting } := by
  simp [riseReset, h, Option.isSome_iff_ne_none.mpr ht]

/-- The soft reset puts the port in IDLE from any of its states (R63, R180). -/
theorem softResetState_portIdle (s : State) : softResetState (portIdle s) = softResetState s := rfl

/-! ### One byte by transaction state (R166 to R168) -/

theorem exec_portByteCompleted (b : Byte) (s : State) : exec (.portByteCompleted b) s = .next (receiveByte b s) := rfl

theorem receiveByte_idle (b : Byte) (h : s.lpt.state = .idle) : receiveByte b s = s := by
  simp only [receiveByte, h]

theorem receiveByte_command (b : Byte) (h : s.lpt.state = .command) : receiveByte b s = commandByte b s := by
  simp only [receiveByte, h]

theorem receiveByte_answer (b : Byte) (h : s.lpt.state = .answer) : receiveByte b s = replyByte s := by
  simp only [receiveByte, h]

theorem receiveByte_discard (b : Byte) (h : s.lpt.state = .discard) :
    receiveByte b s = s.withLpt { s.lpt with sdo := some idleByte } := by
  simp only [receiveByte, h]

theorem commandByte_unknown {b : Byte} (h : Command.ofCode b = none) :
    commandByte b s = takeUnknown (s.withLpt { s.lpt with byteCount := 1, sdo := some idleByte }) := by
  simp only [commandByte, h]

theorem exec_unknownCommand_taken {code : Byte} (h : s.lpt.state = .command) (hcode : Command.ofCode code = none) :
    exec (.unknownCommand code) s = .next (takeUnknown (s.withLpt { s.lpt with byteCount := 1, sdo := some idleByte })) :=
  if_pos ⟨h, hcode⟩

theorem exec_unknownCommand_stay {code : Byte} (h : s.lpt.state ≠ .command ∨ Command.ofCode code ≠ none) :
    exec (.unknownCommand code) s = .next s :=
  if_neg fun ⟨hstate, hcode⟩ => h.elim (fun h => h hstate) fun h => h hcode

/-- A command is taken where the bytes received are all that it calls for. -/
def takeIfComplete (c : Command) (s : State) : State := if complete c s then takeCommand c s else s

theorem complete_iff (c : Command) (s : State) : complete c s = true ↔ c.argumentTotal s.lpt.args = some (s.lpt.byteCount - 1) :=
  beq_iff_eq

theorem takeIfComplete_open {c : Command} (h : c.argumentTotal s.lpt.args ≠ some (s.lpt.byteCount - 1)) :
    takeIfComplete c s = s := if_neg (mt (complete_iff c s).mp h)

theorem takeIfComplete_all {c : Command} (h : c.argumentTotal s.lpt.args = some (s.lpt.byteCount - 1)) :
    takeIfComplete c s = takeCommand c s := if_pos ((complete_iff c s).mpr h)

theorem commandByte_known {b : Byte} {c : Command} (h : Command.ofCode b = some c) :
    commandByte b s = takeIfComplete c
      (s.withLpt { s.lpt with byteCount := 1, sdo := some idleByte, command := some c, state := .arguments }) := by
  simp only [commandByte, h]
  rfl

theorem receiveByte_arguments {c : Command} (b : Byte) (h : s.lpt.state = .arguments) (hc : s.lpt.command = some c) :
    receiveByte b s = takeIfComplete c (passOn c b s) := by
  simp only [receiveByte, h, argumentByte, hc]
  rfl

/-- An argument byte is held, but for the payload of SUBMIT. -/
theorem passOn_argument {c : Command} (b : Byte) (h : c ≠ .submit ∨ s.lpt.args.length < 5) :
    passOn c b s =
      s.withLpt { s.lpt with byteCount := s.lpt.byteCount + 1, sdo := some idleByte, args := s.lpt.args ++ [b] } := by
  refine if_neg fun ⟨hc, hlen⟩ => ?_
  rcases h with h | h
  · exact h hc
  · omega

/-- A payload byte of SUBMIT goes to the staging area, up to its 512 places (R67). -/
theorem passOn_payload (b : Byte) (h : 5 ≤ s.lpt.args.length) :
    passOn .submit b s = (s.withLpt { s.lpt with byteCount := s.lpt.byteCount + 1, sdo := some idleByte }).withTxs
      { s.txs with staging := if s.txs.staging.length < Config.stagingBytes then s.txs.staging ++ [b] else s.txs.staging } :=
  if_pos ⟨rfl, h⟩

/-- The next byte of the answer is sent; after the last one the port is in DISCARD (R168). -/
theorem replyByte_cons {x : Byte} {rest : List Byte} (h : s.lpt.state = .answer) (hr : s.lpt.reply = x :: rest) :
    replyByte s =
      s.withLpt { s.lpt with reply := rest, sdo := some x, state := if rest = [] then .discard else .answer } := by
  cases rest with
  | nil => simp only [replyByte, hr, if_true]
  | cons y rest => simp only [replyByte, hr, ← h, reduceCtorEq, if_false]

/-- SDO shows a byte from bit 7 down to bit 0 (R181). -/
theorem portBits_getD (b : Byte) (j : Fin 8) : (portBits b).getD j.val false = b.getLsbD (7 - j.val) := by
  simp [portBits, j.isLt]

end Sys2Proof.Machine

namespace Sys2Proof.Proofs

open Sys2Proof.Machine

/-- Settles O5: each edge of SEL_N by the state of the port, and the rise of an armed soft reset by the driver. -/
theorem portFraming : Obligations.PortFraming := by
  intro s
  refine ⟨fun h hr => ⟨_, exec_selNFall_idle h hr, rfl, rfl, rfl, rfl, rfl, rfl, ⟨rfl, rfl, rfl⟩, sameOutside_withLpt _ s⟩,
    exec_selNFall_stay,
    fun h => ⟨_, exec_transactionAbandoned_open h, rfl, rfl, rfl, rfl, rfl, ⟨rfl, rfl, rfl⟩, sameOutside_portIdle s⟩,
    exec_transactionAbandoned_stay, fun h => ⟨fun hr => ?_, fun hr ht => ?_, fun hr ht => ?_⟩, exec_transactionEnd_stay⟩
  · refine ⟨_, exec_transactionEnd_taken h, ?_⟩
    rw [riseReset_unarmed (s := portIdle s) hr]
    exact ⟨rfl, rfl, rfl, rfl, ⟨rfl, rfl, rfl⟩, sameOutside_portIdle s⟩
  · rw [exec_transactionEnd_taken h, riseReset_off (s := portIdle s) hr ht, softResetState_portIdle,
      exec_softReset_due ((softResetDue_iff s).mpr (.inl ⟨hr, ht⟩))]
  · refine ⟨_, exec_transactionEnd_taken h, ?_⟩
    rw [riseReset_on (s := portIdle s) hr ht]
    refine ⟨rfl, rfl, rfl, rfl, rfl, ⟨rfl, rfl, rfl⟩, fun x hx => ?_, rfl⟩
    cases x with
    | lpt | txs | stc => simp at hx
    | _ => rfl

/-- Settles O6: the free value of log 9 is read only while a soft reset waits. -/
theorem unknownAnswered : Obligations.UnknownAnswered := by
  intro code s
  refine ⟨fun h hcode => ⟨_, exec_unknownCommand_taken h hcode, fun hw => ?_, fun hw => ?_⟩, exec_unknownCommand_stay⟩
  · have hunknown : takeUnknown (s.withLpt { s.lpt with byteCount := 1, sdo := some idleByte }) =
        answer (refuse .unknown (s.withLpt { s.lpt with byteCount := 1, sdo := some idleByte })) := by
      simp [takeUnknown, resetWaits, hw]
    rw [hunknown]
    exact onlyAnswered_counted ..
  · cases hbusy : Config.unknownAnsweredBusy with
    | false =>
      left
      simp only [takeUnknown, hbusy, Bool.and_false]
      exact onlyAnswered_counted ..
    | true =>
      right
      have hwaits : resetWaits (s.withLpt { s.lpt with byteCount := 1, sdo := some idleByte }) = true := by
        simp [resetWaits, hw]
      simp only [takeUnknown, hbusy, hwaits, Bool.and_true]
      exact onlyAnswered_counted ..

/-- Settles O7: the byte by the state of the port. -/
theorem portByteByState : Obligations.PortByteByState := by
  intro b s
  simp only [exec_portByteCompleted]
  refine ⟨fun h => ?_, fun h hcode => ?_, fun c h hargs hcode hcount => ?_, fun c h hc hheld hcount => ?_,
    fun h hc hlen hcount => ?_, fun x rest h hr => ?_, fun h => ?_, fun j => ?_⟩
  · rw [receiveByte_idle b h]
  · rw [receiveByte_command b h, commandByte_unknown hcode, exec_unknownCommand_taken h hcode]
  · rw [receiveByte_command b h, commandByte_known hcode, takeIfComplete_open ?_]
    · rfl
    · show c.argumentTotal s.lpt.args ≠ some 0
      rwa [hargs]
  · rw [receiveByte_arguments b h hc, passOn_argument b hheld, takeIfComplete_open hcount]
    rfl
  · rw [receiveByte_arguments b h hc, passOn_payload b hlen, takeIfComplete_open hcount]
    rfl
  · rw [receiveByte_answer b h, replyByte_cons h hr]
    rfl
  · rw [receiveByte_discard b h]
    rfl
  · exact congrArg (fun f => s.lpt.sdo.map f) (funext fun x => portBits_getD x j)

/-- Settles O9: a decision is OK or a refusal, and while a soft reset waits the port refuses by itself. -/
theorem refusalHasNoEffect : Obligations.RefusalHasNoEffect := by
  intro i s
  cases hi : transactionOf i with
  | none =>
    have hnever : ¬ Awaited i s := by simp [Awaited, hi]
    exact ⟨fun h => absurd rfl h, fun h => absurd h hnever, fun h => absurd h hnever⟩
  | some transaction =>
    obtain ⟨c, args, payload⟩ := transaction
    have hawaited : Awaited i s ↔ awaits c args payload s = true := by simp [Awaited, hi]
    refine ⟨fun _ hw => ?_, fun hw hreset => ⟨_, exec_awaited hi hw, ?_⟩, fun hw => ?_⟩
    · rw [exec_transaction s hi, transact, if_neg (mt hawaited.mpr hw)]
    · have hwaits : resetWaits (receiveAll c args payload s) = true := by simp [resetWaits, hreset]
      rw [takeCommand, if_pos hwaits]
      exact onlyAnswered_refuse ..
    · rw [exec_awaited hi hw, takeCommand]
      split
      · exact ⟨_, .busy, [], rfl, ⟨rfl, rfl, rfl⟩, fun _ => ⟨rfl, onlyAnswered_refuse ..⟩⟩
      · rcases decideCommand_ok_or_refuse c (receiveAll c args payload s) with hok | ⟨r, hrefused⟩
        · exact ⟨_, _, _, rfl, ⟨rfl, rfl, rfl⟩, fun h => absurd hok h⟩
        · rw [hrefused]
          exact ⟨_, r, [], rfl, ⟨rfl, rfl, rfl⟩, fun _ => ⟨rfl, onlyAnswered_refuse ..⟩⟩

end Sys2Proof.Proofs
end

section
/-! SUPPORT. A transaction sent byte by byte: its code, its arguments and its payload each come to the state of its row, and the levels
of SDI spell those bytes (R166, R167, R181; logs 3, 4 and 19). -/

namespace Sys2Proof.Machine

variable {s : State} {c : Command} {args payload : List Byte}

/-! ### The bytes a command calls for (R167) -/

theorem ofCode_code (c : Command) : Command.ofCode c.code = some c := by
  cases c <;> rfl

/-- Once the bytes received settle how many argument bytes a command calls for, later ones do not change it. -/
theorem argumentTotal_append {n : Nat} (h : c.argumentTotal args = some n) (more : List Byte) :
    c.argumentTotal (args ++ more) = some n := by
  cases c with
  | table =>
    match args, h with
    | _ :: _, h => exact h
  | submit =>
    match args, h with
    | _ :: _ :: _ :: _ :: _ :: _, h => exact h
  | _ => exact h

/-- What a well-formed command says of its bytes: they are as many as its command calls for, and SUBMIT alone, with five bytes of
header, carries a payload. -/
structure BytesCounted (c : Command) (args payload : List Byte) : Prop where
  total : c.argumentTotal args = some (args.length + payload.length)
  header : c = .submit → args.length = 5
  payload : c ≠ .submit → payload = []

theorem bytesCounted_of_wellFormed {i : Instr} (h : transactionOf i = some (c, args, payload)) (wf : i.wellFormed = true) :
    BytesCounted c args payload := by
  cases i with
  | setup _ =>
    obtain ⟨rfl, rfl, rfl⟩ := h
    exact ⟨congrArg some (beq_iff_eq.mp wf).symm, nofun, fun _ => rfl⟩
  | table length _ =>
    obtain ⟨rfl, rfl, rfl⟩ := h
    refine ⟨congrArg some ?_, nofun, fun _ => rfl⟩
    rw [← beq_iff_eq.mp wf, List.length_cons, List.length_nil]
    omega
  | submit tag priority destination length _ =>
    obtain ⟨rfl, rfl, rfl⟩ := h
    refine ⟨?_, fun _ => rfl, fun h => absurd rfl h⟩
    show some (5 + (halfOf (highByte length) (lowByte length)).toNat) = some (5 + payload.length)
    rw [halfOf_bytes, ← beq_iff_eq.mp wf]
  | join | leave | rejoin | restart | enable | test | withdraw | completions | fetch | status | peers | faults | faultClear
  | counter | snapshot =>
    obtain ⟨rfl, rfl, rfl⟩ := h
    exact ⟨rfl, nofun, fun _ => rfl⟩
  | _ => cases h

/-! ### A run of bytes -/

/-- The bytes of a list arrive one after another. -/
def receiveBytes (bytes : List Byte) (s : State) : State := bytes.foldl (fun u b => receiveByte b u) s

theorem receiveBytes_append (bs bs' : List Byte) (s : State) :
    receiveBytes (bs ++ bs') s = receiveBytes bs' (receiveBytes bs s) := List.foldl_append

theorem execAll_portByteCompleted (bytes : List Byte) (s : State) :
    execAll (bytes.map Instr.portByteCompleted) s = .next (receiveBytes bytes s) := by
  induction bytes generalizing s with
  | nil => rfl
  | cons b bytes ih => exact ih (receiveByte b s)

/-- In the state in which some bytes have come, the command is taken where they are all. -/
theorem takeIfComplete_receiveAll (h : c.argumentTotal args = some (args.length + payload.length)) :
    takeIfComplete c (receiveAll c args payload s) = takeCommand c (receiveAll c args payload s) := by
  refine takeIfComplete_all (h.trans (congrArg some ?_))
  show _ = 1 + args.length + payload.length - 1
  omega

theorem takeIfComplete_receiveSome (h : c.argumentTotal args ≠ some (args.length + payload.length)) :
    takeIfComplete c (receiveAll c args payload s) = receiveAll c args payload s := by
  refine takeIfComplete_open fun hall => h (hall.trans (congrArg some ?_))
  show 1 + args.length + payload.length - 1 = _
  omega

/-- One more argument byte (R167). -/
theorem receiveByte_receiveAll_argument (b : Byte) (h : c ≠ .submit ∨ args.length < 5) :
    receiveByte b (receiveAll c args [] s) = takeIfComplete c (receiveAll c (args ++ [b]) [] s) := by
  rw [receiveByte_arguments (c := c) b rfl rfl, passOn_argument (s := receiveAll c args [] s) b h]
  have hcount : 1 + args.length + 0 + 1 = 1 + (args ++ [b]).length + 0 := by
    rw [List.length_append, List.length_singleton]
    omega
  simp only [receiveAll, State.withLpt, State.withTxs, List.length_nil, hcount]

/-- The staging area holds the first 512 bytes of a payload (R67). -/
theorem take_append_byte (ps : List Byte) (b : Byte) (n : Nat) :
    (if (ps.take n).length < n then ps.take n ++ [b] else ps.take n) = (ps ++ [b]).take n := by
  rw [List.length_take]
  by_cases h : ps.length < n
  · rw [if_pos (by omega), List.take_of_length_le (by omega), List.take_of_length_le (by simp; omega)]
  · rw [if_neg (by omega), List.take_append_of_le_length (by omega)]

/-- One more payload byte of a SUBMIT (R67, R167). -/
theorem receiveByte_receiveAll_payload (b : Byte) (h : 5 ≤ args.length) :
    receiveByte b (receiveAll .submit args payload s) =
      takeIfComplete .submit (receiveAll .submit args (payload ++ [b]) s) := by
  rw [receiveByte_arguments (c := .submit) b rfl rfl, passOn_payload (s := receiveAll .submit args payload s) b h,
    receiveAll_staging, take_append_byte]
  have hcount : 1 + args.length + payload.length + 1 = 1 + args.length + (payload ++ [b]).length := by
    rw [List.length_append, List.length_singleton]
    omega
  simp only [receiveAll, State.withLpt, State.withTxs, hcount]

/-- The rest of the arguments, none of which but the last can be the last byte. -/
theorem receiveBytes_arguments {n : Nat} (more : List Byte) (total : c.argumentTotal (args ++ more) = some n)
    (fits : (args ++ more).length ≤ n) (header : c = .submit → (args ++ more).length ≤ 5) :
    receiveBytes more (takeIfComplete c (receiveAll c args [] s)) = takeIfComplete c (receiveAll c (args ++ more) [] s) := by
  induction more generalizing args with
  | nil => rw [List.append_nil]; rfl
  | cons b more ih =>
    have hopen : c.argumentTotal args ≠ some (args.length + ([] : List Byte).length) := fun hall => by
      have hn := Option.some.inj ((argumentTotal_append hall (b :: more)).symm.trans total)
      simp only [List.length_append, List.length_cons, List.length_nil] at fits hn
      omega
    have hheld : c ≠ .submit ∨ args.length < 5 := by
      refine or_iff_not_imp_left.mpr fun hc => ?_
      have hlen := header (not_not.mp hc)
      simp only [List.length_append, List.length_cons] at hlen
      omega
    have hsplit : args ++ b :: more = (args ++ [b]) ++ more := by simp
    rw [takeIfComplete_receiveSome hopen]
    show receiveBytes more (receiveByte b _) = _
    rw [receiveByte_receiveAll_argument b hheld, hsplit]
    rw [hsplit] at total fits header
    exact ih total fits header

/-- The rest of a payload. -/
theorem receiveBytes_payload (more : List Byte) (h : 5 ≤ args.length)
    (total : Command.submit.argumentTotal args = some (args.length + (payload ++ more).length)) :
    receiveBytes more (takeIfComplete .submit (receiveAll .submit args payload s)) =
      takeIfComplete .submit (receiveAll .submit args (payload ++ more) s) := by
  induction more generalizing payload with
  | nil => rw [List.append_nil]; rfl
  | cons b more ih =>
    have hopen : Command.submit.argumentTotal args ≠ some (args.length + payload.length) := fun hall => by
      have hn := Option.some.inj (hall.symm.trans total)
      simp only [List.length_append, List.length_cons] at hn
      omega
    have hsplit : payload ++ b :: more = (payload ++ [b]) ++ more := by simp
    rw [takeIfComplete_receiveSome hopen]
    show receiveBytes more (receiveByte b _) = _
    rw [receiveByte_receiveAll_payload b h, hsplit]
    rw [hsplit] at total
    exact ih total

/-- The bytes of a transaction, its code first, lead from COMMAND to its taking. -/
theorem receiveBytes_transaction (h : BytesCounted c args payload) (hstate : s.lpt.state = .command) (hargs : s.lpt.args = [])
    (hstaging : s.txs.staging = []) :
    receiveBytes (c.code :: (args ++ payload)) s = takeCommand c (receiveAll c args payload s) := by
  have hcode : receiveByte c.code s = takeIfComplete c (receiveAll c [] [] s) := by
    rw [receiveByte_command _ hstate, commandByte_known (ofCode_code c), receiveAll_of_command c hargs hstaging]
  have harguments := receiveBytes_arguments (c := c) (s := s) (args := []) args h.total (Nat.le_add_right _ _)
    fun hc => (h.header hc).le
  have hpayload : receiveBytes payload (takeIfComplete c (receiveAll c args [] s)) =
      takeIfComplete c (receiveAll c args payload s) := by
    by_cases hc : c = .submit
    · subst hc
      exact receiveBytes_payload (payload := []) payload (h.header rfl).ge h.total
    · rw [h.payload hc]
      rfl
  calc receiveBytes (c.code :: (args ++ payload)) s
      = receiveBytes (args ++ payload) (takeIfComplete c (receiveAll c [] [] s)) := by rw [← hcode]; rfl
    _ = receiveBytes payload (takeIfComplete c (receiveAll c args [] s)) := by rw [receiveBytes_append, harguments]; rfl
    _ = takeIfComplete c (receiveAll c args payload s) := hpayload
    _ = takeCommand c (receiveAll c args payload s) := takeIfComplete_receiveAll h.total

end Sys2Proof.Machine

namespace Sys2Proof.Proofs

open Sys2Proof.Machine

/-- Settles O8: before its last byte no transaction is complete, so each byte adds to those of the row. -/
theorem bytesMakeTheTransaction : Obligations.BytesMakeTheTransaction := by
  intro i c args payload s hi wf hstate hargs hstaging
  have hcounted := bytesCounted_of_wellFormed hi wf
  have hawaits : awaits c args payload s = true := by simp [awaits, hcounted.total, hstate]
  have hbytes : execAll ((c.code :: (args ++ payload)).map Instr.portByteCompleted) s = exec i s := by
    rw [execAll_portByteCompleted, receiveBytes_transaction hcounted hstate hargs hstaging, exec_transaction s hi, transact,
      if_pos hawaits]
  refine ⟨hbytes, fun rest hrest => ?_⟩
  have hclocked := clockedBytes_portBits (c.code :: (args ++ payload)) rest hrest
  exact (congrArg (fun bytes => execAll (bytes.map Instr.portByteCompleted) s) hclocked).trans hbytes

end Sys2Proof.Proofs
end

section
/-! SUPPORT. The interrupt causes and INT, ENABLE, TEST, STATUS and SETUP (R22, R65, R171 to R177; 10, SETUP and STATUS). -/

namespace Sys2Proof.Machine

variable {s : State}

/-! ### The causes (R65, R81, R126, R143, R156, R163) -/

theorem Cause.bit_lt (k : Cause) : k.bit < 6 := by cases k <;> decide

theorem Cause.mem_byPriority (k : Cause) : k ∈ Cause.byPriority := by cases k <;> decide

/-- The list of causes runs from the highest priority down, as their bits ascend (R176). -/
theorem Cause.byPriority_sorted : Cause.byPriority.Pairwise fun j k => j.bit < k.bit := by decide

/-- Every bit of a fault-kind set names a kind. -/
theorem FaultKind.exists_of_lt {i : Nat} (h : i < 10) : ∃ k : FaultKind, k.bit = i :=
  match i, h with
  | 0, _ => ⟨.framing, rfl⟩
  | 1, _ => ⟨.format, rfl⟩
  | 2, _ => ⟨.crc, rfl⟩
  | 3, _ => ⟨.digest, rfl⟩
  | 4, _ => ⟨.foreign, rfl⟩
  | 5, _ => ⟨.sequence, rfl⟩
  | 6, _ => ⟨.noSpace, rfl⟩
  | 7, _ => ⟨.aged, rfl⟩
  | 8, _ => ⟨.echo, rfl⟩
  | 9, _ => ⟨.slip, rfl⟩

theorem kindSet_ne_zero_iff (set : KindSet) : set ≠ 0 ↔ ∃ k : FaultKind, hasKind set k = true := by
  constructor
  · intro hne
    by_contra hnone
    refine hne (BitVec.eq_of_getLsbD_eq fun i hi => ?_)
    obtain ⟨k, rfl⟩ := FaultKind.exists_of_lt hi
    have hk : hasKind set k = false := by simpa using fun h => hnone ⟨k, h⟩
    rw [show set.getLsbD k.bit = false from hk]
    simp
  · rintro ⟨k, hk⟩ rfl
    simp [hasKind] at hk

theorem faultPending_iff : causePending s .fault = true ↔ ∃ k : FaultKind, hasKind s.flt.flags k = true := by
  rw [← kindSet_ne_zero_iff]
  simp [causePending]

theorem deliveryPending_iff :
    causePending s .delivery = true ↔ s.cfg.trigger ≤ s.rxu.delivery.length ∨ s.rxu.quietFlag = true := by
  simp [causePending, deliveryCause]

theorem completionPending_iff : causePending s .completion = true ↔ s.txs.completions ≠ [] := by
  simp [causePending]

theorem peerPending_iff : causePending s .peer = true ↔
    ∃ a : Addr, s.pmn.peers[a].presenceChanged = true ∨ s.pmn.peers[a].qualityChanged = true := by
  simp only [causePending, peerCause, List.any_eq_true, Bool.or_eq_true, Vector.mem_toList_iff]
  constructor
  · rintro ⟨r, hr, hchanged⟩
    obtain ⟨i, hi, rfl⟩ := Vector.mem_iff_getElem.mp hr
    exact ⟨⟨i, hi⟩, hchanged⟩
  · rintro ⟨a, hchanged⟩
    exact ⟨s.pmn.peers[a], Vector.getElem_mem a.isLt, hchanged⟩

theorem reportPending_iff : causePending s .report = true ↔ s.flt.reportReady = true ∨ s.flt.liveOverflow = true := by
  simp [causePending]

/-! ### INT and the identified cause (R176) -/

theorem intActive_iff : intActive s = true ↔ ∃ k : Cause, causePending s k = true ∧ s.lpt.enables.getLsbD k.bit = true := by
  simp [intActive, causeEnabled, Cause.mem_byPriority]

/-- The first cause of a list that meets a condition is the one of the lowest bit. -/
theorem Cause.find_byPriority (p : Cause → Bool) (k : Cause) :
    Cause.byPriority.find? p = some k ↔ p k = true ∧ ∀ j : Cause, j.bit < k.bit → p j = false := by
  rw [List.find?_eq_some_iff_append]
  refine and_congr_right fun _ => ⟨?_, fun hlower => ?_⟩
  · rintro ⟨before, after, hsplit, hbefore⟩ j hj
    have hsorted := hsplit ▸ Cause.byPriority_sorted
    have hmem := hsplit ▸ j.mem_byPriority
    rcases List.mem_append.mp hmem with hmem | hmem
    · simpa using hbefore j hmem
    · have hle : k.bit ≤ j.bit := by
        rcases List.mem_cons.mp hmem with rfl | hmem
        · exact le_rfl
        · exact (List.rel_of_pairwise_cons (List.pairwise_append.mp hsorted).2.1 hmem).le
      omega
  · obtain ⟨before, after, hsplit⟩ := List.append_of_mem k.mem_byPriority
    have hsorted := hsplit ▸ Cause.byPriority_sorted
    refine ⟨before, after, hsplit, fun j hj => ?_⟩
    rw [hlower j ((List.pairwise_append.mp hsorted).2.2 j hj k List.mem_cons_self)]
    rfl

theorem identifiedCause_iff (k : Cause) : identifiedCause s = some k ↔
    causePending s k = true ∧ s.lpt.enables.getLsbD k.bit = true ∧
      ∀ j : Cause, j.bit < k.bit → causePending s j = false ∨ s.lpt.enables.getLsbD j.bit = false := by
  simp only [identifiedCause, Cause.find_byPriority, causeEnabled, Bool.and_eq_true, Bool.and_eq_false_iff, and_assoc]

/-- No cause is identified exactly while INT is inactive. -/
theorem identifiedCause_none_iff : identifiedCause s = none ↔ intActive s = false := by
  simp [identifiedCause, intActive]

/-! ### ENABLE and TEST (R22, R173, R174) -/

/-- The six low bits of the argument are the enables. -/
theorem enables_getLsbD (causes : Byte) (k : Cause) : (causes.setWidth 6).getLsbD k.bit = causes.getLsbD k.bit := by
  simp [k.bit_lt]

theorem decideTest_rejected {b : Byte} {args payload : List Byte} (h : b = 0 ∨ 4 ≤ b.toNat) :
    decideTest (receiveAll .test (b :: args) payload s) = refuse .rejected (receiveAll .test (b :: args) payload s) :=
  if_pos (h.imp_left (congrArg BitVec.toNat))

theorem decideTest_ok {b : Byte} {args payload : List Byte} (h1 : 1 ≤ b.toNat) (h3 : b.toNat ≤ 3) :
    decideTest (receiveAll .test (b :: args) payload s) =
      grant [] ((receiveAll .test (b :: args) payload s).withFru
        { s.fru with testPattern := s.fru.testPattern || b.getLsbD 0, testCrc := s.fru.testCrc || b.getLsbD 1 }) := by
  refine if_neg ?_
  show ¬ (b.toNat = 0 ∨ 4 ≤ b.toNat)
  omega

/-! ### STATUS (R175) -/

/-- Six bits packed into a byte are weighed by powers of two. -/
theorem packBits_six (u v w x y z : Bool) : packBits [u, v, w, x, y, z] =
    BitVec.ofNat 8 (u.toNat + 2 * v.toNat + 4 * w.toNat + 8 * x.toNat + 16 * y.toNat + 32 * z.toNat) := by
  refine congrArg (BitVec.ofNat 8) ?_
  simp only [byteOfBits]
  omega

/-- A vector of one item per class, in the order of the classes. -/
theorem vector_toList_four {α : Type} (v : Vector α 4) : v.toList = [v[0], v[1], v[2], v[3]] := by
  obtain ⟨⟨l⟩, h⟩ := v
  match l, h with
  | [_, _, _, _], _ => rfl

/-- The reply of STATUS as 10 lays it out. -/
theorem statusReply_eq (s : State) : statusReply s =
    [stationByte s.stc.station, BitVec.ofNat 8 (s.ctr.aligned.toNat + 2 * s.ctr.hold.toNat),
     BitVec.ofNat 8 s.ctr.table.length, s.ctr.digest, BitVec.ofNat 8 s.ctr.p.val, s.ctr.c,
     BitVec.ofNat 8 s.cfg.ownAddress.val, BitVec.ofNat 8 s.stc.coldAttempts, BitVec.ofNat 8 s.lif.echoFailures,
     BitVec.ofNat 8 s.txs.queues[0].length, BitVec.ofNat 8 s.txs.queues[1].length, BitVec.ofNat 8 s.txs.queues[2].length,
     BitVec.ofNat 8 s.txs.queues[3].length, BitVec.ofNat 8 s.txs.free, BitVec.ofNat 8 s.txs.stack.length,
     BitVec.ofNat 8 s.txs.completions.length, BitVec.ofNat 8 s.rxu.table.length, BitVec.ofNat 8 s.rxu.free,
     BitVec.ofNat 8 s.rxu.delivery.length,
     BitVec.ofNat 8 ((causePending s .station).toNat + 2 * (causePending s .fault).toNat +
       4 * (causePending s .delivery).toNat + 8 * (causePending s .completion).toNat + 16 * (causePending s .peer).toNat +
       32 * (causePending s .report).toNat), identifiedByte s] := by
  have hcauses : causeByte s = _ := packBits_six ..
  rw [statusReply, vector_toList_four, hcauses]
  rfl

/-! ### SETUP (R171, R172) -/

theorem argHalf_toNat (args : List Byte) (i : Nat) : (argHalf args i).toNat = 256 * arg args i + arg args (i + 1) := by
  rw [argHalf, BitVec.toNat_append, ← Nat.shiftLeft_add_eq_or_of_lt (byteAt args (i + 1)).isLt, Nat.shiftLeft_eq]
  simp only [arg]
  omega

theorem arg_lt (args : List Byte) (i : Nat) : arg args i < 256 := (byteAt args i).isLt

theorem argHalf_ne_zero_iff (args : List Byte) (i : Nat) : argHalf args i ≠ 0 ↔ 256 * arg args i + arg args (i + 1) ≠ 0 := by
  rw [← argHalf_toNat]
  exact not_congr BitVec.toNat_inj.symm

/-- A fault-kind set without bits 15:10 has a high byte up to 3. -/
theorem kindSetClean_iff (args : List Byte) (i : Nat) : kindSetClean (argHalf args i) = true ↔ arg args i ≤ 3 := by
  have hlow := arg_lt args (i + 1)
  rw [kindSetClean, decide_eq_true_eq, argHalf_toNat]
  omega

theorem kindSetOf_toNat {args : List Byte} {i : Nat} (h : arg args i ≤ 3) :
    (kindSetOf (argHalf args i)).toNat = 256 * arg args i + arg args (i + 1) := by
  have hlow := arg_lt args (i + 1)
  rw [kindSetOf, BitVec.toNat_setWidth, argHalf_toNat]
  omega

theorem setupInRange_iff (args : List Byte) : setupInRange args = true ↔ SetupRanges args := by
  have hdivisor : (argHalf args 1 != 0) = true ↔ 256 * arg args 1 + arg args 2 ≠ 0 :=
    bne_iff_ne.trans (argHalf_ne_zero_iff args 1)
  have hclasses : ((List.range 8).all fun i => decide (arg args (5 + i) ≤ 3)) = true ↔
      ∀ i : Fin 8, arg args (5 + i.val) ≤ 3 := by
    simp only [List.all_eq_true, List.mem_range, decide_eq_true_eq]
    exact ⟨fun h i => h i.val i.isLt, fun h i hi => h ⟨i, hi⟩⟩
  have htrigger : [1, 4, 8, 14].contains (arg args 21) = true ↔
      arg args 21 = 1 ∨ arg args 21 = 4 ∨ arg args 21 = 8 ∨ arg args 21 = 14 := by
    simp
  simp only [setupInRange, Bool.and_eq_true, decide_eq_true_eq, hdivisor, hclasses, htrigger, kindSetClean_iff, and_assoc]
  constructor
  · rintro ⟨h0, h1, h3, h4, h5, h13, h15, h17, h18, h19, h20, h20', h21, h22, h22', h23, h24, h25, h26, h27⟩
    exact ⟨h0, h1, h3, h4, h5, h13, h15, h17, h18, h19, ⟨h20, h20'⟩, h21, ⟨h22, h22'⟩, h23, h24, h25, h26, h27⟩
  · rintro ⟨h0, h1, h3, h4, h5, h13, h15, h17, h18, h19, ⟨h20, h20'⟩, h21, ⟨h22, h22'⟩, h23, h24, h25, h26, h27⟩
    exact ⟨h0, h1, h3, h4, h5, h13, h15, h17, h18, h19, h20, h20', h21, h22, h22', h23, h24, h25, h26, h27⟩

theorem selectionOf_eq (n : Nat) : selectionOf n =
    if n = 0 then .framing else if n = 1 then .crc else if n = 2 then .pattern else .framingCrc := by
  match n with
  | 0 | 1 | 2 | _ + 3 => simp [selectionOf]

theorem intDriveOf_eq (n : Nat) : intDriveOf n =
    if n = 0 then .openDrainLow else if n = 1 then .pushPullLow else .pushPullHigh := by
  match n with
  | 0 | 1 | _ + 2 => simp [intDriveOf]

/-- Argument bytes in range are carried into the items as they stand (10, SETUP). -/
theorem setupItems_carries {args : List Byte} (h : SetupRanges args) : SetupCarries args (setupItems args) where
  ownAddress := Nat.mod_eq_of_lt (Nat.lt_succ_of_le h.ownAddress)
  divisor := argHalf_toNat args 1
  presence := rfl
  unreachable := rfl
  classMap i := by
    have hclass : (setupItems args).classMap[i] = Fin.ofNat 4 (arg args (5 + i.val)) := Vector.getElem_ofFn ..
    rw [hclass]
    exact Nat.mod_eq_of_lt (Nat.lt_succ_of_le (h.classMap i))
  masks := kindSetOf_toNat h.masks
  severities := kindSetOf_toNat h.severities
  selection := selectionOf_eq _
  reportMode := rfl
  reportPeriod := rfl
  ageLimit := rfl
  trigger := rfl
  quietLimit := rfl
  presenceCapture := rfl
  qualityCapture := rfl
  dlvMode := rfl
  subMode := rfl
  intDrive := intDriveOf_eq _

theorem decideSetup_busy (h : s.stc.station ≠ .config) : decideSetup s = refuse .busy s := if_pos h

theorem decideSetup_rejected (hs : s.stc.station = .config) (h : ¬ SetupRanges s.lpt.args) :
    decideSetup s = refuse .rejected s := by
  rw [decideSetup, if_neg (not_not.mpr hs), if_neg (mt (setupInRange_iff _).mp h)]

theorem decideSetup_ok (hs : s.stc.station = .config) (h : SetupRanges s.lpt.args) :
    decideSetup s = grant [] (applySetup (setupItems s.lpt.args) s) := by
  rw [decideSetup, if_neg (not_not.mpr hs), if_pos ((setupInRange_iff _).mpr h)]

end Sys2Proof.Machine

namespace Sys2Proof.Proofs

open Sys2Proof.Machine

/-- Settles O51: the causes stand in their list by priority, so the first that is pending and enabled is the highest. -/
theorem intFollowsCauses : Obligations.IntFollowsCauses := by
  intro s
  refine ⟨intActive_iff, identifiedCause_iff, identifiedCause_none_iff, rfl, faultPending_iff, deliveryPending_iff,
    completionPending_iff, peerPending_iff, reportPending_iff, ?_⟩
  unfold intPin
  cases s.cfg.intDrive <;> cases intActive s <;> rfl

/-- Settles O12: the enables have no part in the causes. -/
theorem enable : Obligations.Enable := by
  intro causes s hw
  have hcauses : ∀ k : Cause, causePending
      (answer (grant [] ((receiveAll .enable [causes] [] s).withLpt
        { (receiveAll .enable [causes] [] s).lpt with enables := causes.setWidth 6 }))) k = causePending s k := by
    intro k
    cases k <;> rfl
  refine ⟨_, exec_granted rfl hw rfl, ⟨rfl, rfl, rfl⟩, enables_getLsbD causes, hcauses, ?_, rfl, rfl, rfl,
    ((sameOutside_receiveAll ..).withLpt _).answer⟩
  rw [intActive_iff]
  exact exists_congr fun k => and_congr (by rw [← hcauses k]; rfl) (by rw [← enables_getLsbD]; rfl)

/-- Settles O13: the two branches of the decision by the argument. -/
theorem test : Obligations.Test := by
  intro b s hw
  refine ⟨fun h => exec_refused rfl hw (decideTest_rejected h), fun h1 h3 =>
    ⟨_, exec_granted rfl hw (decideTest_ok h1 h3), ⟨rfl, rfl, rfl⟩, rfl, rfl, ⟨rfl, rfl, rfl⟩,
      sameOutside_answer ⟨fun x hx => ?_, rfl⟩ (by decide) (by decide)⟩⟩
  cases x with
  | lpt | txs | fru => simp at hx
  | _ => rfl

/-- Settles O22: the reply is laid out before the STATION cause is cleared. -/
theorem status : Obligations.Status := by
  intro s hw
  refine ⟨_, exec_granted rfl hw rfl, ⟨rfl, congrArg (Result.ok.code :: ·) ?_, rfl⟩, rfl, rfl, ⟨rfl, rfl, rfl⟩,
    sameOutside_answer ⟨fun x hx => ?_, rfl⟩ (by decide) (by decide)⟩
  · show statusReply s = _
    rw [statusReply_eq]
    rfl
  · cases x with
    | lpt | txs | stc => simp at hx
    | _ => rfl

/-- Settles O10: the three branches of the decision; the items are those that the arguments carry. -/
theorem setup : Obligations.Setup := by
  intro args s hw
  refine ⟨fun hs => exec_refused rfl hw (decideSetup_busy hs), fun hs hr => exec_refused rfl hw (decideSetup_rejected hs hr),
    fun hs hr => ⟨_, exec_granted rfl hw (decideSetup_ok hs hr), ⟨rfl, rfl, rfl⟩, setupItems_carries hr,
      derivedPeers_derivePeers _ _, rfl, rfl, dlvCondition_eq _, subCondition_eq _, rfl, rfl,
      sameOutside_answer ⟨fun x hx => ?_, rfl⟩ (by decide) (by decide)⟩⟩
  cases x with
  | lpt | txs | cfg | pmn | flt | rxu => simp at hx
  | _ => rfl

end Sys2Proof.Proofs
end

section
/-! SUPPORT. One step by its queue (log 1): the front command runs on the rest of the queue, and with no command waiting the block idles. -/

namespace Sys2Proof.Machine

theorem step_of_pending_cons {s : State} {c : Instr} {rest : List Instr} (h : s.pending = c :: rest) :
    step s = exec c (s.withPending rest) := by
  simp only [step, h]

theorem step_of_pending_nil {s : State} (h : s.pending = []) : step s = .next s := by
  simp only [step, h]

end Sys2Proof.Machine

namespace Sys2Proof.Proofs

open Sys2Proof.Machine

/-- Settles O1: the two branches of a step by the queue. -/
theorem stepRunsFront : Obligations.StepRunsFront :=
  ⟨fun _ _ _ => step_of_pending_cons, fun _ => step_of_pending_nil⟩

end Sys2Proof.Proofs
end
